-- ==== Sys2Proof/Word.lean ====
section
/-! DEFINITION. The word types of ZMDSP: the bytes of the buffers, the 32-bit registers (R35) and the
binary64 and binary32 patterns (R12: a floating-point value is identified with its bit pattern). -/

namespace Sys2Proof

/-- One byte of the input or output buffer. -/
abbrev Byte := BitVec 8

/-- One 32-bit register, bus word or command word (R35, R110). -/
abbrev Word := BitVec 32

/-- A binary64 value, identified with its 64-bit pattern (R12). -/
abbrev F64 := BitVec 64

/-- A binary32 value, identified with its 32-bit pattern (R12). -/
abbrev F32 := BitVec 32

end Sys2Proof
end

