-- ==== Sys2Proof/Syntax.lean ====
section
/-! DEFINITION. The commands of ZMDSP: one constructor per row of spec/opcode_table.json (R112). -/

namespace Sys2Proof

/-- A command. The four coefficient commands carry the `STAGE` field of their word (R111). -/
inductive Instr where
  | nop
  | configure
  | process
  | flush
  | reset
  | ldcoef (stage : BitVec 3)
  | setls (stage : BitVec 3)
  | seths (stage : BitVec 3)
  | setpk (stage : BitVec 3)
  deriving DecidableEq, Repr

end Sys2Proof
end

