-- ==== Sys2Proof/WellFormed.lean ====
section
/-! DEFINITION. Which commands the encoding has: a coefficient command names a stage 0 to 5 (R111). -/

namespace Sys2Proof

/-- A stage number that exists: 0 to 5 (R111). -/
def stageOk (stage : BitVec 3) : Bool := decide (stage.toNat ≤ 5)

/-- The command has an encoding (R111, R113). -/
def Instr.wellFormed : Instr → Bool
  | .nop => true
  | .configure => true
  | .process => true
  | .flush => true
  | .reset => true
  | .ldcoef s => stageOk s
  | .setls s => stageOk s
  | .seths s => stageOk s
  | .setpk s => stageOk s

/-- `wellFormed`, as a proposition. -/
abbrev Instr.WellFormed (i : Instr) : Prop := i.wellFormed = true

end Sys2Proof
end

