-- ==== Sys2Proof/Decode.lean ====
section
/-! DEFINITION. The command word: `Decode` of rule R113, total on all 2^32 words and rejecting by name, and
the encoder of rules R110 to R112. -/

namespace Sys2Proof

/-- Why a word is ILLEGAL (R113, R115). -/
inductive DecodeError where
  /-- `RSV`, bits 31:11, is not 0. -/
  | reservedBits
  /-- `STAGE` is not 0 for an opcode that takes no stage. -/
  | stageNotZero
  /-- `STAGE` is 6 or 7 for a coefficient command. -/
  | stageOutOfRange
  /-- Opcodes 0x05 to 0x0F and 0x14 to 0xFF. -/
  | reservedOpcode
  deriving DecidableEq, Repr

/-- `OPC`, bits 7:0 (R110). -/
def opcField (w : Word) : BitVec 8 := w.extractLsb' 0 8

/-- `STAGE`, bits 10:8 (R110, R111). -/
def stageField (w : Word) : BitVec 3 := w.extractLsb' 8 3

/-- `RSV`, bits 31:11 (R110). -/
def rsvField (w : Word) : BitVec 21 := w.extractLsb' 11 21

/-- A command that takes no stage: `STAGE` must be 0 (R113). -/
def plainCommand (stage : BitVec 3) (i : Instr) : Except DecodeError Instr :=
  if stage = 0 then .ok i else .error .stageNotZero

/-- A coefficient command: `STAGE` must be 0 to 5 (R113). -/
def stageCommand (stage : BitVec 3) (i : Instr) : Except DecodeError Instr :=
  if stageOk stage then .ok i else .error .stageOutOfRange

/-- `Decode(w)` (R113). -/
def decode (w : Word) : Except DecodeError Instr :=
  let opc := opcField w
  let stage := stageField w
  if rsvField w ≠ 0 then .error .reservedBits
  else if opc = 0x00 then plainCommand stage .nop
  else if opc = 0x01 then plainCommand stage .configure
  else if opc = 0x02 then plainCommand stage .process
  else if opc = 0x03 then plainCommand stage .flush
  else if opc = 0x04 then plainCommand stage .reset
  else if opc = 0x10 then stageCommand stage (.ldcoef stage)
  else if opc = 0x11 then stageCommand stage (.setls stage)
  else if opc = 0x12 then stageCommand stage (.seths stage)
  else if opc = 0x13 then stageCommand stage (.setpk stage)
  else .error .reservedOpcode

/-- The opcode of a command (R112). -/
def Instr.opc : Instr → BitVec 8
  | .nop => 0x00
  | .configure => 0x01
  | .process => 0x02
  | .flush => 0x03
  | .reset => 0x04
  | .ldcoef _ => 0x10
  | .setls _ => 0x11
  | .seths _ => 0x12
  | .setpk _ => 0x13

/-- The `STAGE` field of a command's word (R111). -/
def Instr.stage : Instr → BitVec 3
  | .nop => 0
  | .configure => 0
  | .process => 0
  | .flush => 0
  | .reset => 0
  | .ldcoef s => s
  | .setls s => s
  | .seths s => s
  | .setpk s => s

/-- The command word `{RSV = 0, STAGE, OPC}` (R110, R112). -/
def encode (i : Instr) : Word := (0 : BitVec 21) ++ i.stage ++ i.opc

/-- The command read from a word of `nbits` bits, numbered as spec/opcode_table.json numbers them: `CMD32`
is one 32-bit word, bit 0 its least significant (R110, R11). -/
def decodeTableWord (nbits w : Nat) : Option Instr :=
  if nbits ≤ 32 then (decode (BitVec.ofNat 32 (w % 2 ^ nbits))).toOption else none

end Sys2Proof
end

