-- ==== Sys2Proof/Machine/Float.lean ====
section
/-! DEFINITION. The floating-point arithmetic of rule R12: IEEE 754 binary64, round to nearest, ties to
even, each operation rounded separately, and the conversions from integers, from binary32 and to binary32.
A finite magnitude is read as a whole number of units of the least subnormal, the operation is done exactly
on these integers, and the exact result is narrowed once by `roundUnits`.
An operation whose result is a NaN answers the pattern `q` it is handed: the spec leaves that pattern open
(D29), so callers hand it a fresh draw. -/

namespace Sys2Proof

/-- Round the integer quotient `m / 2^sh` to nearest, ties to even. -/
def rne (m sh : Nat) : Nat :=
  let quo := m / 2 ^ sh
  let rem := m % 2 ^ sh
  if 2 ^ sh < 2 * rem ∨ (2 * rem = 2 ^ sh ∧ quo % 2 = 1) then quo + 1 else quo

/-- Round an exact magnitude to a format of `p` significand bits and give the pattern of the magnitude.
`m` counts units that are `2^d` times finer than the format's least subnormal, and `inf` is the pattern of
infinity, which every magnitude that rounds past the largest finite one becomes (R12, R186). -/
def roundUnits (p d inf m : Nat) : Nat :=
  let sh := max (m.log2 + 1 - p) d
  min inf ((sh - d) * 2 ^ (p - 1) + rne m sh)

namespace F64

/-- The sign bit. -/
def sign (x : F64) : Bool := x.msb

/-- The pattern without its sign bit. -/
def mag (x : F64) : Nat := x.toNat % 2 ^ 63

/-- The magnitude pattern of infinity. -/
def infMag : Nat := 0x7FF0000000000000

def isNaN (x : F64) : Bool := decide (infMag < mag x)

def isInf (x : F64) : Bool := decide (mag x = infMag)

def isFinite (x : F64) : Bool := decide (mag x < infMag)

/-- The binary64 value of a sign and a magnitude pattern. -/
def pack (neg : Bool) (m : Nat) : F64 := BitVec.ofNat 64 (m + if neg then 2 ^ 63 else 0)

/-- `-x`: the sign bit inverted. -/
def neg (x : F64) : F64 := x ^^^ 0x8000000000000000#64

/-- `|x|`: the sign bit cleared (R12). -/
def abs (x : F64) : F64 := x &&& 0x7FFFFFFFFFFFFFFF#64

/-- The magnitude of a finite value, in units of the least subnormal `2^-1074`. -/
def units (x : F64) : Nat :=
  let e := mag x / 2 ^ 52
  let f := mag x % 2 ^ 52
  if e = 0 then f else (2 ^ 52 + f) * 2 ^ (e - 1)

/-- A finite value, in units of `2^-1074`. -/
def signedUnits (x : F64) : Int := if sign x then -(units x : Int) else (units x : Int)

/-- A number that orders the values that are not NaN as IEEE 754 does (both zeros at 0). -/
def key (x : F64) : Int := if sign x then -(mag x : Int) else (mag x : Int)

/-- `a < b`, the IEEE ordered comparison: false if either is a NaN (R12). -/
def lt (a b : F64) : Bool := !isNaN a && !isNaN b && decide (key a < key b)

/-- `a ≤ b`, the IEEE ordered comparison. -/
def le (a b : F64) : Bool := !isNaN a && !isNaN b && decide (key a ≤ key b)

/-- The pattern of the magnitude nearest `m` units of `2^-(1074 + d)`. -/
def roundMag (d m : Nat) : Nat := roundUnits 53 d infMag m

/-- One fixed NaN, for places where no NaN can arise. -/
def quietNaN : F64 := 0x7FF8000000000000#64

/-- The NaN that a draw stands for: every NaN pattern is the value of some draw (D29). -/
def nanOf (draw : BitVec 64) : F64 := if isNaN draw then draw else quietNaN

/-- `a + b` (R12). -/
def add (q a b : F64) : F64 :=
  if isNaN a || isNaN b then q
  else if isInf a then (if isInf b && (sign a != sign b) then q else a)
  else if isInf b then b
  else
    let z := signedUnits a + signedUnits b
    pack (if z = 0 then sign a && sign b else decide (z < 0)) (roundMag 0 z.natAbs)

/-- `a - b` (R12). -/
def sub (q a b : F64) : F64 := add q a (neg b)

/-- `a * b` (R12). -/
def mul (q a b : F64) : F64 :=
  let s := sign a != sign b
  if isNaN a || isNaN b then q
  else if isInf a || isInf b then (if mag a = 0 ∨ mag b = 0 then q else pack s infMag)
  else pack s (roundMag 1074 (units a * units b))

/-- `a / b` (R12). The exact quotient is taken to 2300 binary places, with one bit more that says whether
anything was left over. -/
def div (q a b : F64) : F64 :=
  let s := sign a != sign b
  if isNaN a || isNaN b then q
  else if isInf a then (if isInf b then q else pack s infMag)
  else if isInf b then pack s 0
  else if mag b = 0 then (if mag a = 0 then q else pack s infMag)
  else
    let n := units a * 2 ^ 2300
    pack s (roundMag 1227 (2 * (n / units b) + if n % units b = 0 then 0 else 1))

/-- `fs / 2` (binary64 division) of a rate that is not a NaN: the Nyquist frequency (R16, R146). -/
def nyquist (fs : F64) : F64 := div quietNaN fs 0x4000000000000000#64

/-- `f64(i)` of a natural number (exact below `2^53`, R12). -/
def ofNat (n : Nat) : F64 := pack false (roundMag 0 (n * 2 ^ 1074))

/-- `f64(i)` of an integer (exact for `|i| ≤ 2^53`, R12). -/
def ofInt (i : Int) : F64 := pack (decide (i < 0)) (roundMag 0 (i.natAbs * 2 ^ 1074))

/-- `roundHalfUp(v)` of a finite non-negative value: `floor (v + 1/2)` on the exact value (R14, D19). -/
def roundHalfUp (v : F64) : Nat := (2 * units v + 2 ^ 1074) / 2 ^ 1075

end F64

namespace F32

def sign (x : F32) : Bool := x.msb

/-- The pattern without its sign bit. -/
def mag (x : F32) : Nat := x.toNat % 2 ^ 31

/-- The magnitude pattern of infinity. -/
def infMag : Nat := 0x7F800000

def isNaN (x : F32) : Bool := decide (infMag < mag x)

/-- The binary32 value of a sign and a magnitude pattern. -/
def pack (neg : Bool) (m : Nat) : F32 := BitVec.ofNat 32 (m + if neg then 2 ^ 31 else 0)

/-- The magnitude of a finite value, in units of the least subnormal `2^-149`. -/
def units (x : F32) : Nat :=
  let e := mag x / 2 ^ 23
  let f := mag x % 2 ^ 23
  if e = 0 then f else (2 ^ 23 + f) * 2 ^ (e - 1)

/-- A number that orders the values that are not NaN as IEEE 754 does. -/
def key (x : F32) : Int := if sign x then -(mag x : Int) else (mag x : Int)

/-- One fixed NaN pattern. -/
def quietNaN : F32 := 0x7FC00000#32

/-- The NaN that a draw stands for: every NaN pattern is the value of some draw (R186). -/
def nanOf (draw : BitVec 32) : F32 := if isNaN draw then draw else quietNaN

end F32

/-- `f64(s)` of a binary32 `s`: the exact widening; a NaN gives the pattern `q` (R12, R183). -/
def widen (q : F64) (w : F32) : F64 :=
  if F32.isNaN w then q
  else if F32.mag w = F32.infMag then F64.pack (F32.sign w) F64.infMag
  else F64.pack (F32.sign w) (F64.roundMag 0 (F32.units w * 2 ^ 925))

/-- `f32(a)`: narrowing to nearest, ties to even; a NaN gives the pattern `q` (R12, R186). -/
def narrow (q : F32) (a : F64) : F32 :=
  if F64.isNaN a then q
  else if F64.isInf a then F32.pack (F64.sign a) F32.infMag
  else F32.pack (F64.sign a) (roundUnits 24 925 F32.infMag (F64.units a))

namespace F64

/-! ### The constants of rule R10, each in one place (C11) -/

/-- `1e-25`. -/
def denormFloor : F64 := 0x3ABEF2D0F5DA7DD9#64

/-- `0.02`. -/
def dlSeconds : F64 := 0x3F947AE147AE147B#64

/-- `0.004`. -/
def delaySeconds : F64 := 0x3F70624DD2F1A9FC#64

/-- `0.99`. -/
def clampLimit : F64 := 0x3FEFAE147AE147AE#64

/-- `0.5`. -/
def delayMix : F64 := 0x3FE0000000000000#64

/-- `32768.0`. -/
def pcm16Scale : F64 := 0x40E0000000000000#64

/-- The divisor `2.0`. -/
def two : F64 := 0x4000000000000000#64

/-- `1.0`. -/
def one : F64 := 0x3FF0000000000000#64

/-- `+0.0`. -/
def zero : F64 := 0#64

end F64

end Sys2Proof
end

