-- ==== Sys2Proof/Laws/Float.lean ====
section
/-! SUPPORT. Basic facts of the floating-point arithmetic: a value is its sign and its magnitude pattern. -/

namespace Sys2Proof.F64

theorem mag_lt (x : F64) : mag x < 2 ^ 63 := Nat.mod_lt _ (by decide)

theorem toNat_eq (x : F64) : x.toNat = mag x + if sign x then 2 ^ 63 else 0 := by
  have h := x.isLt
  simp only [mag, sign, BitVec.msb_eq_decide]
  by_cases c : 2 ^ 63 ≤ x.toNat
  · rw [if_pos (by simpa using c)]; omega
  · rw [if_neg (by simpa using c)]; omega

theorem ext_sign_mag {x y : F64} (hs : sign x = sign y) (hm : mag x = mag y) : x = y :=
  BitVec.eq_of_toNat_eq (by rw [toNat_eq, toNat_eq, hs, hm])

theorem toNat_pack {m : Nat} (s : Bool) (h : m < 2 ^ 63) :
    (pack s m).toNat = m + if s then 2 ^ 63 else 0 := by
  rw [pack, BitVec.toNat_ofNat, Nat.mod_eq_of_lt]
  cases s
  · simpa using by omega
  · simpa using by omega

@[simp] theorem sign_pack {m : Nat} (s : Bool) (h : m < 2 ^ 63) : sign (pack s m) = s := by
  rw [sign, BitVec.msb_eq_decide, toNat_pack s h]
  cases s <;> simp <;> omega

@[simp] theorem mag_pack {m : Nat} (s : Bool) (h : m < 2 ^ 63) : mag (pack s m) = m := by
  rw [mag, toNat_pack s h]
  cases s <;> simp <;> omega

@[simp] theorem sign_neg (x : F64) : sign (neg x) = !sign x := by
  have h : BitVec.msb 0x8000000000000000#64 = true := by decide
  simp [sign, neg, BitVec.msb_xor, h]

theorem mag_eq_setWidth (x : F64) : mag x = (x.setWidth 63).toNat := by
  simp [mag]

@[simp] theorem mag_neg (x : F64) : mag (neg x) = mag x := by
  rw [mag_eq_setWidth, mag_eq_setWidth, neg, BitVec.setWidth_xor]
  simp

@[simp] theorem sign_abs (x : F64) : sign (abs x) = false := by
  have h : BitVec.msb 0x7FFFFFFFFFFFFFFF#64 = false := by decide
  simp [sign, abs, BitVec.msb_and, h]

@[simp] theorem mag_abs (x : F64) : mag (abs x) = mag x := by
  rw [mag_eq_setWidth, mag_eq_setWidth, abs, BitVec.setWidth_and]
  have : BitVec.setWidth 63 0x7FFFFFFFFFFFFFFF#64 = BitVec.allOnes 63 := by decide
  rw [this, BitVec.and_allOnes]

@[simp] theorem key_neg (x : F64) : key (neg x) = -key x := by
  simp only [key, sign_neg, mag_neg]
  cases sign x <;> simp

@[simp] theorem key_abs (x : F64) : key (abs x) = mag x := by simp [key]

@[simp] theorem isNaN_neg (x : F64) : isNaN (neg x) = isNaN x := by simp [isNaN]

@[simp] theorem isNaN_abs (x : F64) : isNaN (abs x) = isNaN x := by simp [isNaN]

theorem infMag_lt : infMag < 2 ^ 63 := by decide

theorem roundMag_le (d m : Nat) : roundMag d m ≤ infMag := Nat.min_le_left _ _

theorem roundMag_lt (d m : Nat) : roundMag d m < 2 ^ 63 := lt_of_le_of_lt (roundMag_le d m) infMag_lt

/-- Every draw stands for a NaN. -/
@[simp] theorem isNaN_nanOf (b : BitVec 64) : isNaN (nanOf b) = true := by
  unfold nanOf
  split
  · assumption
  · decide

/-- Every NaN pattern is the value of some draw. -/
theorem nanOf_of_isNaN {x : F64} (h : isNaN x = true) : nanOf x = x := by simp [nanOf, h]

/-- Packing a rounded magnitude never gives a NaN. -/
@[simp] theorem isNaN_pack_roundMag (s : Bool) (d m : Nat) : isNaN (pack s (roundMag d m)) = false := by
  simp only [isNaN, mag_pack s (roundMag_lt d m), decide_eq_false_iff_not, Nat.not_lt]
  exact roundMag_le d m

end Sys2Proof.F64
end

