-- ==== Sys2Proof/Config.lean ====
section
/-! DEFINITION. What is fixed for one ZMDSP and what the spec leaves open: the parameter record P of rule R9
with its constraints, and the free values of 93_implementation_defined.md section 1. Both are uninterpreted
constants: a statement about the machine holds for every admissible parameter and every draw. -/

namespace Sys2Proof

/-- The designer's three responses (R141). -/
inductive Kind where
  | ls
  | hs
  | pk
  deriving DecidableEq, Repr

/-- One stage's FilterCoefficients, feed-forward `a`, feedback `b` (R16, R59). -/
structure Coef where
  a0 : F64
  a1 : F64
  a2 : F64
  b1 : F64
  b2 : F64
  deriving DecidableEq, Repr

/-- The tuning constants (R9). -/
structure Tune where
  inputGain : F64
  bassFreq : F64
  midFreq : F64
  trebleFreq : F64
  bassGain : F64
  midGain : F64
  trebleGain : F64
  midQ : F64
  spatialWidth : F64
  outputGain : F64
  deriving DecidableEq, Repr

/-- The parameter record P (R9). Configuration, not state: no command changes it (R33). -/
structure Params where
  base : Word
  dlMax : Nat
  ibufBytes : Nat
  obufBytes : Nat
  tune : Tune
  /-- `DESIGN(kind, freq, fs, gain, Q)` (R142). -/
  design : Kind → F64 → F64 → F64 → F64 → Coef
  /-- `TANH64` (R234). -/
  tanh64 : F64 → F64
  /-- `CLAMP_FREQ(f, fs)` (R253). -/
  clampFreq : F64 → F64 → F64

/-- Finite and greater than zero. -/
abbrev F64.Pos (x : F64) : Prop := F64.isFinite x = true ∧ F64.lt F64.zero x = true

/-- The constraints column of rule R9 for the tuning constants. -/
structure Tune.Ok (t : Tune) : Prop where
  inputGain : F64.isFinite t.inputGain = true
  bassFreq : F64.Pos t.bassFreq
  midFreq : F64.Pos t.midFreq
  trebleFreq : F64.Pos t.trebleFreq
  bassGain : F64.Pos t.bassGain
  midGain : F64.Pos t.midGain
  trebleGain : F64.Pos t.trebleGain
  midQ : F64.Pos t.midQ
  spatialWidth : F64.isFinite t.spatialWidth = true
  outputGain : F64.isFinite t.outputGain = true

/-- The properties a model may assume of `TANH64` (R234). That it is pure is its type; the accuracy of its
approximation no source states. The sign is kept, zeros and underflow included: R234 says that its properties
make every statement of R238 hold, and R238 says that the SOFT policy preserves the sign, which IEEE order,
in which the two zeros are equal, would not give (DEDUCED; log 2). -/
structure TanhOk (f : F64 → F64) : Prop where
  nan : ∀ x, F64.isNaN x = true → F64.isNaN (f x) = true
  posZero : f 0#64 = 0#64
  negZero : f 0x8000000000000000#64 = 0x8000000000000000#64
  odd : ∀ x, F64.isNaN x = false → f (F64.neg x) = F64.neg (f x)
  sign : ∀ x, F64.isNaN x = false → F64.sign (f x) = F64.sign x
  mono : ∀ x y, F64.le x y = true → F64.le (f x) (f y) = true
  bounded : ∀ x, F64.isNaN x = false → F64.le (F64.abs (f x)) F64.one = true
  posInf : f 0x7FF0000000000000#64 = F64.one
  negInf : f 0xFFF0000000000000#64 = F64.neg F64.one

/-- The properties a model may assume of `CLAMP_FREQ` (R253), wherever a value strictly between 0 and `fs / 2`
exists, that is where `fs / 2` exceeds the least positive binary64.
DEDUCED, safe (log 10): at the two smallest positive rates the rule asks for a value that does not exist. -/
structure ClampOk (c : F64 → F64 → F64) : Prop where
  below : ∀ f fs, F64.Pos f → F64.Pos fs → F64.lt 1#64 (F64.nyquist fs) = true →
    F64.lt F64.zero (c f fs) = true ∧ F64.lt (c f fs) (F64.nyquist fs) = true
  keeps : ∀ f fs, F64.Pos f → F64.Pos fs → F64.lt f (F64.nyquist fs) = true → c f fs = f

/-- The constraints of rule R9, with those of R142, R234 and R253. -/
structure Params.Ok (P : Params) : Prop where
  base : P.base.toNat % 0x80000 = 0
  dlMax : 960 ≤ P.dlMax ∧ P.dlMax ≤ 8192
  ibufBytes : P.ibufBytes % 8 = 0 ∧ 8 ≤ P.ibufBytes ∧ P.ibufBytes ≤ 0x20000
  obufBytes : 2 * P.ibufBytes ≤ P.obufBytes ∧ P.obufBytes ≤ 0x40000 ∧ P.obufBytes % 4 = 0
  tune : P.tune.Ok
  /-- For `LS` and `HS` the result does not depend on `Q` (R142). -/
  design : ∀ k f fs g q q', k ≠ .pk → P.design k f fs g q = P.design k f fs g q'
  tanh64 : TanhOk P.tanh64
  clampFreq : ClampOk P.clampFreq

/-- An admissible parameter record. -/
structure ValidParams where
  P : Params
  ok : P.Ok

/-- The draws of 93_implementation_defined.md section 1, each numbered so that it is made once. -/
structure Free where
  /-- The pattern of a NaN that a binary64 operation or a widening produces. -/
  nan64 : Nat → BitVec 64
  /-- The pattern of a NaN narrowed to binary32. -/
  nan32 : Nat → BitVec 32
  /-- A byte of `IBUF` or `OBUF` that nothing has written, by power-on and window offset. -/
  byte : Nat → Nat → Byte
  /-- What a read of anything but `STATUS` returns while `BUSY = 1`. -/
  word : Nat → Word
  /-- How many host events are served before a command completes. -/
  duration : Nat → Nat

/-- Parameters and draws together: what the semantics takes as an argument (R9). -/
structure Env where
  P : Params
  free : Free

namespace Config

/-! ### An admissible record exists

`params` below is uninterpreted. Lean asks that its type is inhabited, which `sample` shows; nothing about
`sample` can be proved of `params`. -/

/-- A step function with the properties of R234. -/
def sampleTanh (x : F64) : F64 :=
  if F64.isNaN x then x else if F64.mag x = 0 then x else F64.pack (F64.sign x) 0x3FF0000000000000

/-- The frequency itself, or the value just below Nyquist. -/
def sampleClamp (f fs : F64) : F64 :=
  if F64.lt f (F64.nyquist fs) then f else F64.nyquist fs - 1#64

def sample : Params where
  base := 0
  dlMax := 960
  ibufBytes := 64
  obufBytes := 128
  tune :=
    { inputGain := F64.one, bassFreq := F64.one, midFreq := F64.one, trebleFreq := F64.one,
      bassGain := F64.one, midGain := F64.one, trebleGain := F64.one, midQ := F64.one,
      spatialWidth := 0x3FF8000000000000#64, outputGain := F64.one }
  design := fun _ _ _ _ _ => ⟨F64.one, 0, 0, 0, 0⟩
  tanh64 := sampleTanh
  clampFreq := sampleClamp

theorem sampleTanh_ok : TanhOk sampleTanh where
  nan x h := by simp [sampleTanh, h]
  posZero := by decide
  negZero := by decide
  odd x h := by
    by_cases h0 : F64.mag x = 0
    · simp [sampleTanh, h, h0]
    · refine F64.ext_sign_mag ?_ ?_ <;> simp [sampleTanh, h, h0]
  sign x h := by
    by_cases h0 : F64.mag x = 0 <;> simp [sampleTanh, h, h0]
  mono x y h := by
    simp only [F64.le, Bool.and_eq_true, Bool.not_eq_true', decide_eq_true_eq] at h ⊢
    obtain ⟨⟨hx, hy⟩, hk⟩ := h
    have small : ∀ s, F64.isNaN (F64.pack s 0x3FF0000000000000) = false := by decide
    have keys : ∀ s, F64.key (F64.pack s 0x3FF0000000000000)
        = if s then -(0x3FF0000000000000 : Int) else 0x3FF0000000000000 := by decide
    simp only [sampleTanh, hx, hy, Bool.false_eq_true, if_false]
    by_cases h0 : F64.mag x = 0 <;> by_cases h1 : F64.mag y = 0 <;>
      simp only [h0, h1, if_true, if_false, small, keys, hx, hy, true_and] <;>
      simp only [F64.key, h0, h1] at hk ⊢ <;>
      cases hsx : F64.sign x <;> cases hsy : F64.sign y <;> simp [hsx, hsy] at hk ⊢ <;> omega
  bounded x h := by
    have h0 := h
    simp only [F64.le, F64.isNaN_abs, F64.key_abs, Bool.and_eq_true, Bool.not_eq_true',
      decide_eq_true_eq]
    have one : F64.isNaN F64.one = false ∧ F64.key F64.one = 0x3FF0000000000000 := by decide
    by_cases h1 : F64.mag x = 0
    · simp [sampleTanh, h, h1, one.1, one.2]
    · have : ∀ s, F64.isNaN (F64.pack s 0x3FF0000000000000) = false := by decide
      simp [sampleTanh, h, h1, one.1, one.2, this]
  posInf := by decide
  negInf := by decide

theorem sampleClamp_ok : ClampOk sampleClamp where
  below f fs hf hfs hn := by
    by_cases h : F64.lt f (F64.nyquist fs) = true
    · exact ⟨by simpa [sampleClamp, h] using hf.2, by simp [sampleClamp, h]⟩
    · generalize hny : F64.nyquist fs = n at hn h ⊢
      simp only [F64.lt, Bool.and_eq_true, Bool.not_eq_true', decide_eq_true_eq] at hn
      obtain ⟨⟨-, hnan⟩, hk⟩ := hn
      have h1 : F64.key 1#64 = 1 := by decide
      have hs : F64.sign n = false := by
        cases hs : F64.sign n
        · rfl
        · rw [h1, F64.key, hs] at hk; simp at hk; omega
      have hm : 1 < F64.mag n := by rw [h1, F64.key, hs] at hk; simpa using hk
      have hle : F64.mag n ≤ F64.infMag := by simpa [F64.isNaN] using hnan
      have htn : n.toNat = F64.mag n := by simp [F64.toNat_eq n, hs]
      have ht : (n - 1#64).toNat = F64.mag n - 1 := by
        rw [BitVec.toNat_sub_of_le (by simp [BitVec.le_def]; omega), htn]; rfl
      have hinf : F64.infMag < 2 ^ 63 := F64.infMag_lt
      have hp : n - 1#64 = F64.pack false (F64.mag n - 1) :=
        BitVec.eq_of_toNat_eq (by rw [ht, F64.toNat_pack false (by omega)]; simp)
      have hlt : F64.mag n - 1 < 2 ^ 63 := by omega
      have z : F64.isNaN F64.zero = false ∧ F64.key F64.zero = 0 := by decide
      have hnn : F64.isNaN (F64.pack false (F64.mag n - 1)) = false := by
        simp only [F64.isNaN, F64.mag_pack _ hlt, decide_eq_false_iff_not]; omega
      have hkey : F64.key (F64.pack false (F64.mag n - 1)) = ((F64.mag n - 1 : Nat) : Int) := by
        simp [F64.key, F64.sign_pack _ hlt, F64.mag_pack _ hlt]
      have hkn : F64.key n = F64.mag n := by simp [F64.key, hs]
      have hc : sampleClamp f fs = F64.pack false (F64.mag n - 1) := by
        rw [sampleClamp, hny, if_neg h, hp]
      rw [hc]
      simp only [F64.lt, z.1, z.2, hnn, hkey, hkn, hnan, Bool.not_false, Bool.true_and,
        decide_eq_true_eq]
      constructor <;> omega
  keeps f fs _ _ h := by simp [sampleClamp, h]

theorem sample_ok : sample.Ok where
  base := by decide
  dlMax := by decide
  ibufBytes := by decide
  obufBytes := by decide
  tune := ⟨by decide, by decide, by decide, by decide, by decide, by decide, by decide, by decide,
    by decide, by decide⟩
  design _ _ _ _ _ _ _ := rfl
  tanh64 := sampleTanh_ok
  clampFreq := sampleClamp_ok

/-! ### The uninterpreted constants -/

/-- Some admissible parameter record: nothing is known of it but `Params.Ok`. -/
opaque chosen [Inhabited ValidParams] : ValidParams

/-- The NaN patterns of binary64 results and of widening (D29; log 1). -/
opaque freeNaN64 : Nat → BitVec 64

/-- The NaN patterns of narrowing (R186; log 1). -/
opaque freeNaN32 : Nat → BitVec 32

/-- The power-on contents of `IBUF` and `OBUF` (R64, R65, R340; log 3). -/
opaque freeByte : Nat → Nat → Byte

/-- What reads return while `BUSY = 1` (R351; log 6). -/
opaque freeWord : Nat → Word

/-- How many host events are served before a command completes (R356; log 5). -/
opaque freeDuration : Nat → Nat

/-- The parameters of this ZMDSP (R9; log 2). -/
def params : Params := (@chosen ⟨⟨sample, sample_ok⟩⟩).P

theorem params_ok : params.Ok := (@chosen ⟨⟨sample, sample_ok⟩⟩).ok

/-- The parameters and draws the machine runs with. -/
def env : Env := ⟨params, ⟨freeNaN64, freeNaN32, freeByte, freeWord, freeDuration⟩⟩

end Config

end Sys2Proof
end

