-- ==== Sys2Proof/Machine/State.lean ====
section
/-! DEFINITION. The architectural state of ZMDSP (R30), the host's side of the interface (R358) and the
counters that number the draws, all plain data, with the power-on state of rule R340. -/

namespace Sys2Proof.Machine

/-- The lifecycle state (R34). Value 3 is never produced, so it is no constructor. -/
inductive Fsm where
  | unconfigured
  | configured
  | processing
  deriving DecidableEq, Repr

/-- The result codes (R40, R301). Codes 6 to 15 are never produced, so they are no constructors. -/
inductive ErrCode where
  | ok
  | illegal
  | state
  | unsupported
  | contract
  | length
  deriving DecidableEq, Repr

/-- The limiting policy (R41, R230). -/
inductive Clip where
  | hard
  | soft
  deriving DecidableEq, Repr

/-- The float-input policy (R42). -/
inductive FloatPolicy where
  | accept
  | reject
  deriving DecidableEq, Repr

/-- The active input encoding (R52). -/
inductive Enc where
  | pcm16
  | pcmFloat
  deriving DecidableEq, Repr

/-- The active channel count, 1 or 2 (R52). -/
inductive Channels where
  | mono
  | stereo
  deriving DecidableEq, Repr

/-- One stage's FilterState (R60). -/
structure Hist where
  x1 : F64
  x2 : F64
  y1 : F64
  y2 : F64
  deriving DecidableEq, Repr

/-- A command in progress: `STATUS.BUSY = 1` (R37). -/
structure Pending where
  /-- The word that was written to `CMD` (R95). -/
  word : Word
  /-- How many host events are still served before the command completes (R356; log 5). -/
  hold : Nat
  deriving DecidableEq, Repr

/-- The width of a host access: 1, 2 or 4 bytes (R86). -/
inductive Width where
  | b1
  | b2
  | b4
  deriving DecidableEq, Repr

/-- What comes from outside the core (R358, R118, R340). -/
inductive Input where
  /-- `MemRead(addr, n)` (R86). -/
  | read (addr : Word) (width : Width)
  /-- `MemWrite(addr, n, v)` (R86): the low `8n` bits of `value`. -/
  | write (addr : Word) (width : Width) (value : Word)
  /-- `WAIT`: read `STATUS` until its bit 0 is 0 (R120). -/
  | wait
  /-- Power-on reset (R340). -/
  | powerOn
  deriving DecidableEq, Repr

/-- Why the machine stops. -/
inductive Fault where
  /-- Raised by a host access of a width, alignment or offset that R86 to R88 do not allow: a bus error, which
  a model treats as a fault of the host agent (R308). SAFE: the access has no effect and the run ends. -/
  | busError (addr : Word) (width : Width)
  /-- Raised by a host access to an address outside the 512 KiB window at BASE (R80; log 8). SAFE: the run
  ends. -/
  | outsideWindow (addr : Word) (width : Width)
  deriving DecidableEq, Repr

/-- Why a command has no meaning. No command of ZMDSP is refused (R300). -/
inductive Refusal where
  /-- Raised by `exec` for a command that is not modelled yet. SAFE: the run ends. No arm raises it. -/
  | notModelled (mnemonic : String)
  deriving DecidableEq, Repr

/-- The byte memory of the two buffers: window offset and byte, offsets strictly rising. It lists the bytes
that have been written since power-on; an offset it does not list has no stored value (log 3). -/
abbrev Memory := List Host.Cell

/-- The canonical form of a memory: offsets strictly rising. No listed byte equals what an unlisted offset
holds, because an unlisted offset holds none. -/
abbrev Memory.wf (m : Memory) : Prop := (m.map Prod.fst).Pairwise (· < ·)

structure State where
  /-- `STATUS.BUSY` and the command in progress (R36, R37). -/
  pending : Option Pending
  /-- `STATUS.FSM` (R38). -/
  fsm : Fsm
  /-- `STATUS.HZ` (R39). -/
  hz : Bool
  /-- `STATUS.ERR` (R40). -/
  err : ErrCode
  /-- `CTRL.CLIP_MODE` (R41). -/
  ctrlClip : Clip
  /-- `CTRL.FLOAT_POLICY` (R42). -/
  ctrlFloat : FloatPolicy
  /-- `CFG_FS` (R45). -/
  cfgFs : Word
  /-- `CFG_FMT.CH` (R46). -/
  cfgCh : BitVec 8
  /-- `CFG_FMT.ENC` (R47). -/
  cfgEnc : BitVec 2
  /-- `IN_LEN` (R48). -/
  inLen : Word
  /-- `OPD0 .. OPD4` (R58). -/
  opd : Vector F64 5
  /-- `ACT_FS` (R51). -/
  actFs : Word
  /-- `ACT_FMT.ACT_CH` (R52). -/
  actCh : Channels
  /-- `ACT_FMT.ACT_ENC` (R52). -/
  actEnc : Enc
  /-- `ACT_FMT.ACT_CLIP` (R52). -/
  actClip : Clip
  /-- `OUT_FRAMES` (R49). -/
  outFrames : Word
  /-- `OUT_BYTES` (R50). -/
  outBytes : Word
  /-- `COEF[0..5]` (R59). -/
  coef : Vector Coef 6
  /-- `FST[0..5]` (R60). -/
  fst : Vector Hist 6
  /-- `DL_LEN` (R53). -/
  dlLen : Word
  /-- `DL_DELAY` (R54). -/
  dlDelay : Word
  /-- `DL_WIDX` (R55). -/
  dlWidx : Word
  /-- `DL_RIDX` (R56). -/
  dlRidx : Word
  /-- `DL[0 .. DL_LEN-1]` (R61). -/
  dl : List F64
  /-- `IBUF` at window offsets 0x20000 and up, `OBUF` at 0x40000 and up (R64, R65). -/
  mem : Memory
  /-- What is still to come from outside, oldest first (R358, R340; log 4). -/
  inputs : List Input
  /-- What the host's reads have returned, oldest first (R86; log 4). -/
  replies : List Word
  /-- The model's own: which power-on this is, numbering the draws of unwritten bytes (log 3). -/
  powerOns : Nat
  /-- The model's own: the number of the next NaN-pattern draw (log 1). -/
  nanDraw : Nat
  /-- The model's own: the number of the next draw of a duration or of a read while busy (logs 5, 6). -/
  busDraw : Nat
  deriving DecidableEq, Repr

/-- The FilterState that is all `+0.0` (R60). -/
def Hist.zero : Hist := ⟨0, 0, 0, 0⟩

/-- Coefficients that are all `+0.0`: the power-on value (R59). -/
def coefZero : Coef := ⟨0, 0, 0, 0, 0⟩

/-- ZMDSP right after power-on (R340), with nothing to come from outside. -/
def State.reset : State where
  pending := none
  fsm := .unconfigured
  hz := false
  err := .ok
  ctrlClip := .hard
  ctrlFloat := .accept
  cfgFs := 48000
  cfgCh := 2
  cfgEnc := 0
  inLen := 0
  opd := Vector.replicate 5 0
  actFs := 48000
  actCh := .stereo
  actEnc := .pcm16
  actClip := .hard
  outFrames := 0
  outBytes := 0
  coef := Vector.replicate 6 coefZero
  fst := Vector.replicate 6 Hist.zero
  dlLen := 0
  dlDelay := 0
  dlWidx := 0
  dlRidx := 0
  dl := []
  mem := []
  inputs := []
  replies := []
  powerOns := 0
  nanDraw := 0
  busDraw := 0

end Sys2Proof.Machine
end

