-- ==== Sys2Proof/Machine/Flags.lean ====
section
/-! DEFINITION. The registers whose words are composed of fields: STATUS (R37 to R40), CTRL (R41 to R43),
CFG_FMT (R46, R47) and ACT_FMT (R52). ZMDSP has no arithmetic flags and no floating-point flags (R312). -/

namespace Sys2Proof.Machine

/-- `STATUS.BUSY` (R37). -/
def State.busy (s : State) : Bool := s.pending.isSome

/-- `FSM` as a 2-bit field (R34). -/
def Fsm.code : Fsm → BitVec 2
  | .unconfigured => 0
  | .configured => 1
  | .processing => 2

/-- `ERR` as a 4-bit field (R40, R301). -/
def ErrCode.code : ErrCode → BitVec 4
  | .ok => 0
  | .illegal => 1
  | .state => 2
  | .unsupported => 3
  | .contract => 4
  | .length => 5

/-- A policy bit: 0 HARD, 1 SOFT (R41). -/
def Clip.code : Clip → BitVec 1
  | .hard => 0
  | .soft => 1

/-- The policy a bit selects (R41). -/
def Clip.ofBit (b : Bool) : Clip := if b then .soft else .hard

/-- A policy bit: 0 ACCEPT, 1 REJECT (R42). -/
def FloatPolicy.code : FloatPolicy → BitVec 1
  | .accept => 0
  | .reject => 1

/-- The policy a bit selects (R42). -/
def FloatPolicy.ofBit (b : Bool) : FloatPolicy := if b then .reject else .accept

/-- `ACT_ENC` as a 2-bit field (R52). -/
def Enc.code : Enc → BitVec 2
  | .pcm16 => 0
  | .pcmFloat => 1

/-- `ACT_CH` as an 8-bit field (R52). -/
def Channels.code : Channels → BitVec 8
  | .mono => 1
  | .stereo => 2

/-- `STATUS`: `BUSY` in bit 0, `FSM` in bits 2:1, `HZ` in bit 3, `ERR` in bits 7:4, the rest 0
(R37 to R40). -/
def statusWord (s : State) : Word :=
  (0 : BitVec 24) ++ s.err.code ++ BitVec.ofBool s.hz ++ s.fsm.code ++ BitVec.ofBool s.busy

/-- `CTRL`: `CLIP_MODE` in bit 0, `FLOAT_POLICY` in bit 1, the rest 0 (R41 to R43). -/
def ctrlWord (s : State) : Word := (0 : BitVec 30) ++ s.ctrlFloat.code ++ s.ctrlClip.code

/-- A write of `CTRL`: bits 31:2 are ignored (R41 to R43). -/
def writeCtrl (v : Word) (s : State) : State :=
  { s with ctrlClip := Clip.ofBit (v.getLsbD 0), ctrlFloat := FloatPolicy.ofBit (v.getLsbD 1) }

/-- `CFG_FMT`: `CH` in bits 7:0, `ENC` in bits 9:8, the rest 0 (R46, R47). -/
def cfgFmtWord (s : State) : Word := (0 : BitVec 22) ++ s.cfgEnc ++ s.cfgCh

/-- A write of `CFG_FMT`: bits 31:10 are ignored (R46, R47). -/
def writeCfgFmt (v : Word) (s : State) : State :=
  { s with cfgCh := v.extractLsb' 0 8, cfgEnc := v.extractLsb' 8 2 }

/-- `ACT_FMT`: `ACT_CH` in bits 7:0, `ACT_ENC` in bits 9:8, `ACT_CLIP` in bit 16, the rest 0 (R52). -/
def actFmtWord (s : State) : Word :=
  (0 : BitVec 15) ++ s.actClip.code ++ (0 : BitVec 6) ++ s.actEnc.code ++ s.actCh.code

end Sys2Proof.Machine
end

