-- ==== Sys2Proof/Machine/Ops.lean ====
section
/-! DEFINITION. The named operations over registers, banks and buffers: completing a command with a result
code, the byte memory of the buffers, the stage banks, and the draws of NaN patterns. -/

namespace Sys2Proof.Machine

/-! ### How a command ends -/

/-- A command completes: its result code goes to `STATUS.ERR` and `STATUS.BUSY` is cleared (R300, R303). -/
def State.complete (code : ErrCode) (s : State) : State := { s with err := code, pending := none }

/-- `raise Error(code)` (R13, R302): the command ends at once with its code; nothing else is written.
This is all that an error does: ZMDSP has no trap entry and no return from one (R321, R322). -/
def State.raise (code : ErrCode) (s : State) : State := s.complete code

/-- CONFIGURE's `reject(code)`: `FSM <- UNCONFIGURED`, then the raise (R255, R257). -/
def State.reject (code : ErrCode) (s : State) : State :=
  State.raise code { s with fsm := .unconfigured }

/-! ### The byte memory -/

/-- The byte stored at a window offset, if one has been written since power-on. -/
def Memory.read : Memory → Nat → Option Byte
  | [], _ => none
  | (a, b) :: m, x => if a = x then some b else Memory.read m x

/-- Store a byte at a window offset, keeping the offsets rising. -/
def Memory.write : Memory → Nat → Byte → Memory
  | [], x, v => [(x, v)]
  | (a, b) :: m, x, v =>
    if x < a then (x, v) :: (a, b) :: m
    else if x = a then (x, v) :: m
    else (a, b) :: Memory.write m x v

/-- Store the `n` low bytes of `v` little-endian from a window offset on: byte `k` is `v[8k+7 : 8k]`
(R84, R85). -/
def Memory.writeLE (m : Memory) (off : Nat) (v : Word) : Nat → Memory
  | 0 => m
  | n + 1 => (Memory.writeLE m off v n).write (off + n) (v.extractLsb' (8 * n) 8)

/-- The window offset of `IBUF[0]` (R82). -/
def ibufBase : Nat := 0x20000

/-- The window offset of `OBUF[0]` (R82). -/
def obufBase : Nat := 0x40000

/-- A byte of a buffer: what was last written, or the byte's power-on draw (R64, R65, R340; log 3). -/
def bufByte (E : Env) (s : State) (off : Nat) : Byte :=
  (s.mem.read off).getD (E.free.byte s.powerOns off)

/-- Two bytes from a window offset on, little-endian (R83, R85). -/
def bufRead16 (E : Env) (s : State) (off : Nat) : BitVec 16 :=
  bufByte E s (off + 1) ++ bufByte E s off

/-- Four bytes from a window offset on, little-endian (R83, R85). -/
def bufRead32 (E : Env) (s : State) (off : Nat) : BitVec 32 :=
  bufByte E s (off + 3) ++ bufByte E s (off + 2) ++ bufByte E s (off + 1) ++ bufByte E s off

/-- `IbufRead(o, 2)` (R85). -/
def ibufRead16 (E : Env) (s : State) (o : Nat) : BitVec 16 := bufRead16 E s (ibufBase + o)

/-- `IbufRead(o, 4)` (R85). -/
def ibufRead32 (E : Env) (s : State) (o : Nat) : BitVec 32 := bufRead32 E s (ibufBase + o)

/-- `ObufWrite(o, 4, v)` (R85). -/
def obufWrite (o : Nat) (v : F32) (s : State) : State :=
  { s with mem := s.mem.writeLE (obufBase + o) v 4 }

/-! ### The stage banks -/

/-- `COEF[i]` (R59). -/
def State.coefAt (s : State) (i : Fin 6) : Coef := s.coef.get i

/-- `COEF[i] <- c`, all five registers at once (R150). -/
def State.setCoef (i : Fin 6) (c : Coef) (s : State) : State := { s with coef := s.coef.set i c }

/-- `FST[i]` (R60). -/
def State.fstAt (s : State) (i : Fin 6) : Hist := s.fst.get i

/-- `FST[i] <- h`. -/
def State.setFst (i : Fin 6) (h : Hist) (s : State) : State := { s with fst := s.fst.set i h }

/-- All six FilterStates `<- +0.0` (R60). -/
def clearFst (s : State) : State := { s with fst := Vector.replicate 6 Hist.zero }

/-! ### Draws of NaN patterns -/

/-- The binary64 NaN that the `i`-th operation from here on answers if its result is a NaN (D29; log 1). -/
def nan64At (E : Env) (s : State) (i : Nat) : F64 := F64.nanOf (E.free.nan64 (s.nanDraw + i))

/-- The binary32 NaN that a narrowing here answers if its argument is a NaN (R186; log 1). -/
def nan32At (E : Env) (s : State) : F32 := F32.nanOf (E.free.nan32 s.nanDraw)

/-- `n` draws of NaN patterns have been used. -/
def State.tick (n : Nat) (s : State) : State := { s with nanDraw := s.nanDraw + n }

end Sys2Proof.Machine
end

