-- ==== Sys2Proof/Machine/Operands.lean ====
section
/-! DEFINITION. The operand forms of the commands (R116, R117): the stage number, the operand registers as
raw binary64 patterns, the zero-extended integers, and the frame geometry that the active format selects. -/

namespace Sys2Proof.Machine

/-- The stage that `STAGE` names: 0 to 5, or none (R111). -/
def stageIndex (stage : BitVec 3) : Option (Fin 6) :=
  if h : stage.toNat < 6 then some ⟨stage.toNat, h⟩ else none

/-- The stage of a channel and a band, `s = 3·ch + band` (R140). -/
def stageOf (ch : Fin 2) (band : Fin 3) : Fin 6 := ⟨3 * ch.val + band.val, by omega⟩

/-- `OPDn`, the raw pattern (R117). -/
def State.operand (s : State) (n : Fin 5) : F64 := s.opd.get n

/-- `OPDn <- v`, a host write of one half keeps the other (R58). -/
def State.setOperand (n : Fin 5) (v : F64) (s : State) : State := { s with opd := s.opd.set n v }

/-- `OPD0 .. OPD4` as the coefficients `a0, a1, a2, b1, b2` (R58, R150). -/
def operandCoef (s : State) : Coef :=
  ⟨s.operand 0, s.operand 1, s.operand 2, s.operand 3, s.operand 4⟩

/-- `f64(CFG_FS)`, exact (R117). -/
def rateOperand (s : State) : F64 := F64.ofNat s.cfgFs.toNat

/-- `SB`, the bytes of an input sample (R180). -/
def Enc.bytes : Enc → Nat
  | .pcm16 => 2
  | .pcmFloat => 4

/-- The number of channels. -/
def Channels.count : Channels → Nat
  | .mono => 1
  | .stereo => 2

/-- `FB = ACT_CH × SB`, the bytes of an input frame (R180). -/
def frameBytes (s : State) : Nat := s.actCh.count * s.actEnc.bytes

/-- `N = ceil(IN_LEN / FB)`, a trailing partial frame included (R251). -/
def frameCount (s : State) : Nat := (s.inLen.toNat + frameBytes s - 1) / frameBytes s

end Sys2Proof.Machine
end

