-- ==== Sys2Proof/Machine/Biquad.lean ====
section
/-! DEFINITION. biquad_core (40_biquad.md): the filter stage, the chain, the designer's contract and the four
coefficient commands. -/

namespace Sys2Proof.Machine

/-! ### The filter stage -/

/-- The sum of rule R147 before the snap, in the written order, each product and sum rounded separately.
`q i` is the NaN that the `i`-th of its nine operations answers. -/
def biquadSum (q : Nat → F64) (c : Coef) (h : Hist) (x : F64) : F64 :=
  let t := F64.mul (q 0) c.a0 x
  let t := F64.add (q 2) t (F64.mul (q 1) c.a1 h.x1)
  let t := F64.add (q 4) t (F64.mul (q 3) c.a2 h.x2)
  let t := F64.sub (q 6) t (F64.mul (q 5) c.b1 h.y1)
  F64.sub (q 8) t (F64.mul (q 7) c.b2 h.y2)

/-- Denormal suppression: `if |t| < DENORM_FLOOR: t = +0.0` (R147). -/
def snap (t : F64) : F64 := if F64.lt (F64.abs t) F64.denormFloor then F64.zero else t

/-- What `biquad_step` returns (R147). -/
def biquadOut (q : Nat → F64) (c : Coef) (h : Hist) (x : F64) : F64 := snap (biquadSum q c h x)

/-- The history shift: the raw input and the snapped output enter (R147). -/
def Hist.shift (h : Hist) (x t : F64) : Hist := ⟨x, h.x1, t, h.y1⟩

/-- `biquad_step(i, x)`: the returned value and the state after (R147). -/
def biquadStep (E : Env) (i : Fin 6) (x : F64) (s : State) : F64 × State :=
  let t := biquadOut (nan64At E s) (s.coefAt i) (s.fstAt i) x
  (t, (s.setFst i ((s.fstAt i).shift x t)).tick 9)

/-- `biquad_chain(ch, x)`: bass, mid, treble in series (R149). -/
def biquadChain (E : Env) (ch : Fin 2) (x : F64) (s : State) : F64 × State :=
  let bass := biquadStep E (stageOf ch 0) x s
  let mid := biquadStep E (stageOf ch 1) bass.1 bass.2
  biquadStep E (stageOf ch 2) mid.1 mid.2

/-! ### Coefficient reload -/

/-- `designer_ok` (R146). -/
def designerOk (k : Kind) (freq fs gain q : F64) : Bool :=
  F64.isFinite freq && F64.isFinite fs && F64.isFinite gain &&
  F64.lt F64.zero fs && F64.lt F64.zero freq && F64.lt freq (F64.nyquist fs) &&
  F64.lt F64.zero gain &&
  match k with
  | .ls => true
  | .hs => true
  | .pk => F64.isFinite q && F64.lt F64.zero q

/-- A designer command on a stage: the contract, then the design (R151 to R153). -/
def designInto (E : Env) (k : Kind) (q : F64) (i : Fin 6) (s : State) : State :=
  if designerOk k (s.operand 0) (s.operand 1) (s.operand 2) q then
    (s.setCoef i (E.P.design k (s.operand 0) (s.operand 1) (s.operand 2) q)).complete .ok
  else s.raise .contract

/-- A command on the stage its word names; a word that names stage 6 or 7 is ILLEGAL (R111, R113, R114). -/
def onStage (stage : BitVec 3) (f : Fin 6 → State → State) (s : State) : State :=
  match stageIndex stage with
  | some i => f i s
  | none => s.raise .illegal

/-- `LDCOEF` (R150): any pattern is accepted, in every state; the history is kept. -/
def ldcoef (stage : BitVec 3) (s : State) : State :=
  onStage stage (fun i s => (s.setCoef i (operandCoef s)).complete .ok) s

/-- `SETLS` (R151): `Q` is `+0.0`. -/
def setls (E : Env) (stage : BitVec 3) (s : State) : State :=
  onStage stage (designInto E .ls F64.zero) s

/-- `SETHS` (R152): `Q` is `+0.0`. -/
def seths (E : Env) (stage : BitVec 3) (s : State) : State :=
  onStage stage (designInto E .hs F64.zero) s

/-- `SETPK` (R153): `Q` is `OPD3`. -/
def setpk (E : Env) (stage : BitVec 3) (s : State) : State :=
  onStage stage (designInto E .pk (s.operand 3)) s

/-- The meaning of `LDCOEF s` (R150). -/
def execLdcoef (stage : BitVec 3) (s : State) : Host.Outcome State Fault Refusal :=
  .next (ldcoef stage s)

/-- The meaning of `SETLS s` (R151). -/
def execSetls (stage : BitVec 3) (s : State) : Host.Outcome State Fault Refusal :=
  .next (setls Config.env stage s)

/-- The meaning of `SETHS s` (R152). -/
def execSeths (stage : BitVec 3) (s : State) : Host.Outcome State Fault Refusal :=
  .next (seths Config.env stage s)

/-- The meaning of `SETPK s` (R153). -/
def execSetpk (stage : BitVec 3) (s : State) : Host.Outcome State Fault Refusal :=
  .next (setpk Config.env stage s)

end Sys2Proof.Machine
end

