-- ==== Sys2Proof/Machine/Codec.lean ====
section
/-! DEFINITION. The sample codec (41_codec.md): reading PCM16 and PCM_FLOAT samples of the input buffer and
narrowing to binary32. -/

namespace Sys2Proof.Machine

/-- `pcm16_to_fp`: a signed 16-bit sample divided by 32768.0 (R182). -/
def pcm16ToFp (v : BitVec 16) : F64 := F64.div F64.quietNaN (F64.ofInt v.toInt) F64.pcm16Scale

/-- `pcmf_to_fp`: a binary32 sample widened; a NaN becomes the pattern `q` (R183). -/
def pcmfToFp (q : F64) (w : F32) : F64 := widen q w

/-- The sample at an input offset, in the active encoding (R180, R184). -/
def sampleAt (E : Env) (s : State) (q : F64) (o : Nat) : F64 :=
  match s.actEnc with
  | .pcm16 => pcm16ToFp (ibufRead16 E s o)
  | .pcmFloat => pcmfToFp q (ibufRead32 E s o)

/-- `decode_frame(n)`: the pair of frame `n`, with the short-frame guard and mono duplication
(R181, R184, R185). -/
def decodeFrame (E : Env) (n : Nat) (s : State) : F64 × F64 :=
  let base := n * frameBytes s
  if s.inLen.toNat < base + frameBytes s then (F64.zero, F64.zero)
  else
    let l := sampleAt E s (nan64At E s 0) base
    match s.actCh with
    | .mono => (l, l)
    | .stereo => (l, sampleAt E s (nan64At E s 1) (base + s.actEnc.bytes))

/-- `fp_to_pcm`: narrowing to binary32; a NaN gives the pattern `q` (R186). -/
def fpToPcm (q : F32) (v : F64) : F32 := narrow q v

end Sys2Proof.Machine
end

