-- ==== Sys2Proof/Machine/Output.lean ====
section
/-! DEFINITION. soft_clip_unit (43_output.md): the output gain, the two limiting policies and the narrowing. -/

namespace Sys2Proof.Machine

/-- `hard_clamp(u)`: a NaN fails both comparisons and is returned (R233). -/
def hardClamp (u : F64) : F64 :=
  if F64.lt u (F64.neg F64.clampLimit) then F64.neg F64.clampLimit
  else if F64.lt F64.clampLimit u then F64.clampLimit
  else u

/-- `soft_clip(u) = TANH64(u)` (R235). -/
def softClip (P : Params) (u : F64) : F64 := P.tanh64 u

/-- The limiting policy (R230). -/
def limitPolicy (P : Params) (c : Clip) (u : F64) : F64 :=
  match c with
  | .hard => hardClamp u
  | .soft => softClip P u

/-- `limit(v)` (R231, R232): `q` and `q32` are the NaN patterns of the gain and of the narrowing. -/
def limitWith (P : Params) (c : Clip) (q : F64) (q32 : F32) (v : F64) : F32 :=
  fpToPcm q32 (limitPolicy P c (F64.mul q v P.tune.outputGain))

/-- `limit(v)` in a state, with its draws (R232). -/
def limit (E : Env) (v : F64) (s : State) : F32 :=
  limitWith E.P s.actClip (nan64At E s 0) (nan32At E s) v

end Sys2Proof.Machine
end

