-- ==== Sys2Proof/Machine/Stereo.lean ====
section
/-! DEFINITION. delay_line_buffer and mid_side_xform (42_stereo.md): sizing, clearing, the cursors and the
stereo widener. -/

namespace Sys2Proof.Machine

/-- `L = roundHalfUp(F * DL_SECONDS)` for the rate `F` (R200). -/
def delayLength (rate : F64) : Nat := F64.roundHalfUp (F64.mul F64.quietNaN rate F64.dlSeconds)

/-- `D = roundHalfUp(F * DELAY_SECONDS)` for the rate `F` (R201). -/
def delayLag (rate : F64) : Nat := F64.roundHalfUp (F64.mul F64.quietNaN rate F64.delaySeconds)

/-- The initial read cursor `(L − D) mod L`, the non-negative remainder, and 0 for a line of length 0
(R202, R11). -/
def initialReadCursor (len delay : Nat) : Nat :=
  if len = 0 then 0 else (len - delay % len) % len

/-- `dl_init()` (R202, R203). -/
def dlInit (s : State) : State :=
  { s with
    dl := List.replicate s.dlLen.toNat F64.zero
    dlWidx := 0
    dlRidx := BitVec.ofNat 32 (initialReadCursor s.dlLen.toNat s.dlDelay.toNat) }

/-- A cursor one position on, modulo the length (R204, R205). -/
def advance (idx len : Word) : Word := BitVec.ofNat 32 ((idx.toNat + 1) % len.toNat)

/-- `DL[i]`; an index past the line reads `+0.0` (R61). -/
def State.dlAt (s : State) (i : Nat) : F64 := s.dl.getD i F64.zero

/-- `dl_write(v)` (R204). -/
def dlWrite (v : F64) (s : State) : State :=
  { s with dl := s.dl.set s.dlWidx.toNat v, dlWidx := advance s.dlWidx s.dlLen }

/-- `dl_read()`: the value and the state after (R205). -/
def dlRead (s : State) : F64 × State :=
  (s.dlAt s.dlRidx.toNat, { s with dlRidx := advance s.dlRidx s.dlLen })

/-- The widened side signal `(side + d * DELAY_MIX) * W` (R206, step 4). -/
def widenSide (q : Nat → F64) (w side d : F64) : F64 :=
  F64.mul (q 2) (F64.add (q 1) side (F64.mul (q 0) d F64.delayMix)) w

/-- `mid_side_xform(l, r)`: the two outputs and the state after; a delay line of length 0 passes the side
signal through (R206, R207). -/
def midSide (E : Env) (l r : F64) (s : State) : (F64 × F64) × State :=
  let q := nan64At E s
  let mid := F64.div (q 1) (F64.add (q 0) l r) F64.two
  let side := F64.div (q 3) (F64.sub (q 2) l r) F64.two
  let out (s2 : F64) : F64 × F64 := (F64.add (q 4) mid s2, F64.sub (q 5) mid s2)
  if s.dlLen = 0 then (out side, s.tick 9)
  else
    let rd := dlRead (dlWrite side s)
    (out (widenSide (fun i => q (6 + i)) E.P.tune.spatialWidth side rd.1), rd.2.tick 9)

end Sys2Proof.Machine
end

