-- ==== Sys2Proof/Machine/Pipeline.lean ====
section
/-! DEFINITION. The sequencer and the lifecycle commands (44_pipeline.md): NOP, CONFIGURE, PROCESS, FLUSH and
RESET. -/

namespace Sys2Proof.Machine

/-! ### PROCESS -/

/-- One output sample: the limiter, then the store of its binary32 (R187, R250). -/
def emit (E : Env) (o : Nat) (v : F64) (s : State) : State := (obufWrite o (limit E v s) s).tick 1

/-- The output samples of a frame: left, and in stereo right, interleaved (R250, R251). -/
def emitFrame (E : Env) (n : Nat) (l r : F64) (s : State) : State :=
  match s.actCh with
  | .mono => emit E (n * 4) l s
  | .stereo => emit E (n * 8 + 4) r (emit E (n * 8) l s)

/-- The widener in stereo; mono bypasses it (R208, R250). -/
def widenFrame (E : Env) (l r : F64) (s : State) : (F64 × F64) × State :=
  match s.actCh with
  | .mono => ((l, r), s)
  | .stereo => midSide E l r s

/-- The input gain on both samples of the decoded pair (R252). -/
def gainFrame (E : Env) (lr : F64 × F64) (s : State) : F64 × F64 :=
  (F64.mul (nan64At E s 0) lr.1 E.P.tune.inputGain, F64.mul (nan64At E s 1) lr.2 E.P.tune.inputGain)

/-- `process_frame(n)` (R250). Both chains run in mono too (D21). -/
def processFrame (E : Env) (n : Nat) (s : State) : State :=
  let s1 := s.tick 2
  let lr := gainFrame E (decodeFrame E n s) s1
  let left := biquadChain E 0 lr.1 (s1.tick 2)
  let right := biquadChain E 1 lr.2 left.2
  let wide := widenFrame E left.1 right.1 right.2
  emitFrame E n wide.1.1 wide.1.2 wide.2

/-- `k` frames in order, the first of them frame `n` (R260, R326). -/
def processFrames (E : Env) : Nat → Nat → State → State
  | 0, _, s => s
  | k + 1, n, s => processFrames E k (n + 1) (processFrame E n s)

/-- `PROCESS` (R260). -/
def process (E : Env) (s : State) : State :=
  if s.fsm = .unconfigured then s.raise .state
  else if E.P.ibufBytes < s.inLen.toNat then s.raise .length
  else
    let n := frameCount s
    State.complete .ok
      { processFrames E n 0 s with
        outFrames := BitVec.ofNat 32 n
        outBytes := BitVec.ofNat 32 (n * s.actCh.count * 4)
        fsm := .processing }

/-! ### CONFIGURE -/

/-- The channel count a `CFG_FMT.CH` names, if it is supported (R256, order 2). -/
def channelsOf (ch : BitVec 8) : Option Channels :=
  if ch = 1 then some .mono else if ch = 2 then some .stereo else none

/-- The encoding a `CFG_FMT.ENC` names, if it is supported (R256, order 2). -/
def encOf (enc : BitVec 2) : Option Enc :=
  if enc = 0 then some .pcm16 else if enc = 1 then some .pcmFloat else none

/-- CONFIGURE's checks, in order: the format it negotiates, or the code of the first check that fails
(R256). -/
def configureCheck (E : Env) (s : State) : Except ErrCode (Channels × Enc) :=
  if s.cfgFs = 0 ∨ s.cfgCh = 0 then .error .contract
  else
    match channelsOf s.cfgCh, encOf s.cfgEnc with
    | some ch, some enc =>
      if enc = .pcmFloat ∧ s.ctrlFloat = .reject then .error .unsupported
      else if E.P.dlMax < delayLength (rateOperand s) then .error .unsupported
      else .ok (ch, enc)
    | _, _ => .error .unsupported

/-- The coefficients CONFIGURE designs for a band at the rate `F` (R140, R255). -/
def bandCoef (P : Params) (F : F64) (band : Fin 3) : Coef :=
  match band with
  | 0 => P.design .ls (P.clampFreq P.tune.bassFreq F) F P.tune.bassGain F64.zero
  | 1 => P.design .pk (P.clampFreq P.tune.midFreq F) F P.tune.midGain P.tune.midQ
  | 2 => P.design .hs (P.clampFreq P.tune.trebleFreq F) F P.tune.trebleGain F64.zero

/-- The six designed stages: left and right alike (R255). -/
def designedCoef (P : Params) (F : F64) : Vector Coef 6 :=
  #v[bandCoef P F 0, bandCoef P F 1, bandCoef P F 2, bandCoef P F 0, bandCoef P F 1, bandCoef P F 2]

/-- An accepted CONFIGURE (R255). -/
def configureAccept (E : Env) (ch : Channels) (enc : Enc) (s : State) : State :=
  let F := rateOperand s
  let s := { s with actFs := s.cfgFs, actCh := ch, actEnc := enc, actClip := s.ctrlClip }
  let s := clearFst { s with coef := designedCoef E.P F }
  let s := dlInit
    { s with dlLen := BitVec.ofNat 32 (delayLength F), dlDelay := BitVec.ofNat 32 (delayLag F) }
  State.complete .ok { s with fsm := .configured }

/-- `CONFIGURE` (R255 to R257). -/
def configure (E : Env) (s : State) : State :=
  match configureCheck E s with
  | .error code => s.reject code
  | .ok (ch, enc) => configureAccept E ch enc s

/-! ### NOP, FLUSH, RESET and ILLEGAL words -/

/-- `NOP` (R254). -/
def nop (s : State) : State := s.complete .ok

/-- What FLUSH does to the lifecycle state: PROCESSING becomes CONFIGURED (R262). -/
def Fsm.flushed : Fsm → Fsm
  | .unconfigured => .unconfigured
  | .configured => .configured
  | .processing => .configured

/-- `FLUSH` (R262). -/
def flush (s : State) : State :=
  let s := dlInit (clearFst s)
  State.complete .ok { s with fsm := s.fsm.flushed }

/-- `RESET` (R266). Its `HZ <- 0` is applied when the command completes, so a host write that was dropped while
this RESET was in progress (R350) leaves `HZ = 0`: the spec gives no order between the two.
DESIGN CHOICE, unsafe (log 13). -/
def resetCommand (s : State) : State :=
  let s := dlInit (clearFst { s with actFs := 48000, actCh := .stereo, actEnc := .pcm16 })
  State.complete .ok { s with fsm := .unconfigured, hz := false }

/-- A word that decodes to ILLEGAL (R114). -/
def illegalWord (s : State) : State := s.raise .illegal

/-- The meaning of `NOP` (R254). -/
def execNop (s : State) : Host.Outcome State Fault Refusal := .next (nop s)

/-- The meaning of `CONFIGURE` (R255). -/
def execConfigure (s : State) : Host.Outcome State Fault Refusal := .next (configure Config.env s)

/-- The meaning of `PROCESS` (R260). -/
def execProcess (s : State) : Host.Outcome State Fault Refusal := .next (process Config.env s)

/-- The meaning of `FLUSH` (R262). -/
def execFlush (s : State) : Host.Outcome State Fault Refusal := .next (flush s)

/-- The meaning of `RESET` (R266). -/
def execReset (s : State) : Host.Outcome State Fault Refusal := .next (resetCommand s)

end Sys2Proof.Machine
end

