-- ==== Sys2Proof/Machine/Bus.lean ====
section
/-! DEFINITION. The host's side (10_state.md, 20_memory.md, 70_reset_and_hazards.md): the window, the register
map, the reads and writes of the host while ZMDSP is idle and while it is busy, WAIT and power-on reset. -/

namespace Sys2Proof.Machine

/-! ### The window (R80 to R82, R86 to R88) -/

/-- The bytes of an access. -/
def Width.bytes : Width → Nat
  | .b1 => 1
  | .b2 => 2
  | .b4 => 4

/-- Where a legal access lands, with its window offset. -/
inductive Place where
  | reg (off : Nat)
  | dlwin (off : Nat)
  | ibuf (off : Nat)
  | obuf (off : Nat)
  deriving DecidableEq, Repr

/-- The place of a legal access at a window offset (R81, R82, R86, R88), or none: a bus error. -/
def placeOf (P : Params) (off : Nat) (w : Width) : Option Place :=
  if off < 0x20000 then
    if w = .b4 ∧ off % 4 = 0 then some (if off < 0x10000 then .reg off else .dlwin off) else none
  else if off < 0x20000 + P.ibufBytes then
    if off % w.bytes = 0 ∧ off + w.bytes ≤ 0x20000 + P.ibufBytes then some (.ibuf off) else none
  else if 0x40000 ≤ off ∧ w = .b4 ∧ off % 4 = 0 ∧ off + 4 ≤ 0x40000 + P.obufBytes then
    some (.obuf off)
  else none

/-- The window offset of a bus address, if it is in the 512 KiB window at BASE (R35, R80). -/
def windowOffset (P : Params) (addr : Word) : Option Nat :=
  let off := (addr - P.base).toNat
  if off < 0x80000 then some off else none

/-- The place of a host access, or the host's fault (R80, R87, R88, R308). -/
def locate (P : Params) (addr : Word) (w : Width) : Except Fault Place :=
  match windowOffset P addr with
  | none => .error (.outsideWindow addr w)
  | some off =>
    match placeOf P off w with
    | none => .error (.busError addr w)
    | some p => .ok p

/-! ### The register map (R35) -/

/-- The registers of a stage bank (R67). -/
inductive BankReg where
  | a0
  | a1
  | a2
  | b1
  | b2
  | x1
  | x2
  | y1
  | y2
  deriving DecidableEq, Repr

/-- Which half of a 64-bit register (R84). -/
inductive Half where
  | lo
  | hi
  deriving DecidableEq, Repr

/-- The registers of the register page (R35). -/
inductive Reg where
  | cmd
  | status
  | ctrl
  | id
  | cfgFs
  | cfgFmt
  | inLen
  | outFrames
  | outBytes
  | actFs
  | actFmt
  | dlLen
  | dlDelay
  | dlWidx
  | dlRidx
  | paramDlmax
  | paramIbuf
  | paramObuf
  | opd (n : Fin 5) (h : Half)
  | bank (i : Fin 6) (r : BankReg) (h : Half)
  | reserved
  deriving DecidableEq, Repr

/-- The half that a word-aligned offset names: LO at a multiple of 8, HI above it (R84). -/
def halfOf (off : Nat) : Half := if off % 8 = 0 then .lo else .hi

/-- The register of a stage bank at a byte offset within the bank (R67). -/
def bankRegOf (o : Nat) : Option BankReg :=
  match o / 8 with
  | 0 => some .a0
  | 1 => some .a1
  | 2 => some .a2
  | 3 => some .b1
  | 4 => some .b2
  | 8 => some .x1
  | 9 => some .x2
  | 10 => some .y1
  | 11 => some .y2
  | _ => none

/-- The single registers, by word number (R35). -/
def singleRegs : List Reg :=
  [.cmd, .status, .ctrl, .id, .cfgFs, .cfgFmt, .inLen, .outFrames, .outBytes, .actFs, .actFmt, .dlLen,
    .dlDelay, .dlWidx, .dlRidx, .paramDlmax, .paramIbuf, .paramObuf]

/-- The register at a word-aligned offset of the register page (R35, R58, R67). -/
def regAt (off : Nat) : Reg :=
  if off < 0x48 then singleRegs.getD (off / 4) .reserved
  else if h : 0x80 ≤ off ∧ off < 0xA8 then .opd ⟨(off - 0x80) / 8, by omega⟩ (halfOf off)
  else if h : 0x100 ≤ off ∧ off < 0x400 then
    match bankRegOf ((off - 0x100) % 0x80) with
    | some r => .bank ⟨(off - 0x100) / 0x80, by omega⟩ r (halfOf off)
    | none => .reserved
  else .reserved

/-- One half of a 64-bit value (R84). -/
def halfWord (h : Half) (v : F64) : Word :=
  match h with
  | .lo => v.extractLsb' 0 32
  | .hi => v.extractLsb' 32 32

/-- A 64-bit value with one half replaced (R84). -/
def setHalf (h : Half) (w : Word) (v : F64) : F64 :=
  match h with
  | .lo => v.extractLsb' 32 32 ++ w
  | .hi => w ++ v.extractLsb' 0 32

/-- A register of a stage bank (R67). -/
def bankValue (c : Coef) (h : Hist) : BankReg → F64
  | .a0 => c.a0
  | .a1 => c.a1
  | .a2 => c.a2
  | .b1 => c.b1
  | .b2 => c.b2
  | .x1 => h.x1
  | .x2 => h.x2
  | .y1 => h.y1
  | .y2 => h.y2

/-- `ID` (R44). -/
def idWord : Word := 0x5A4D0007

/-- What a register reads (R35 to R60, R67, R89). -/
def readReg (P : Params) (s : State) : Reg → Word
  | .cmd => 0
  | .status => statusWord s
  | .ctrl => ctrlWord s
  | .id => idWord
  | .cfgFs => s.cfgFs
  | .cfgFmt => cfgFmtWord s
  | .inLen => s.inLen
  | .outFrames => s.outFrames
  | .outBytes => s.outBytes
  | .actFs => s.actFs
  | .actFmt => actFmtWord s
  | .dlLen => s.dlLen
  | .dlDelay => s.dlDelay
  | .dlWidx => s.dlWidx
  | .dlRidx => s.dlRidx
  | .paramDlmax => BitVec.ofNat 32 P.dlMax
  | .paramIbuf => BitVec.ofNat 32 P.ibufBytes
  | .paramObuf => BitVec.ofNat 32 P.obufBytes
  | .opd n h => halfWord h (s.operand n)
  | .bank i r h => halfWord h (bankValue (s.coefAt i) (s.fstAt i) r)
  | .reserved => 0

/-- A write of `CMD` while idle: the command is issued, `BUSY <- 1` (R36), for a free number of further host
events (R356; log 5). -/
def issue (E : Env) (v : Word) (s : State) : State :=
  { s with pending := some ⟨v, E.free.duration s.busDraw⟩, busDraw := s.busDraw + 1 }

/-- A write of a register while idle; read-only and reserved ones ignore it (R36, R41 to R48, R58, R89). -/
def writeReg (E : Env) (r : Reg) (v : Word) (s : State) : State :=
  match r with
  | .cmd => issue E v s
  | .ctrl => writeCtrl v s
  | .cfgFs => { s with cfgFs := v }
  | .cfgFmt => writeCfgFmt v s
  | .inLen => { s with inLen := v }
  | .opd n h => s.setOperand n (setHalf h v (s.operand n))
  | .status => s
  | .id => s
  | .outFrames => s
  | .outBytes => s
  | .actFs => s
  | .actFmt => s
  | .dlLen => s
  | .dlDelay => s
  | .dlWidx => s
  | .dlRidx => s
  | .paramDlmax => s
  | .paramIbuf => s
  | .paramObuf => s
  | .bank _ _ _ => s
  | .reserved => s

/-! ### Host reads and writes -/

/-- The entry of the delay memory that an offset of `DLWIN` reads (R61): past the line, `+0.0`. -/
def dlwinWord (s : State) (off : Nat) : Word :=
  let i := (off - 0x10000) / 8
  halfWord (halfOf off) (if i < s.dlLen.toNat then s.dlAt i else F64.zero)

/-- Bytes of a buffer, little-endian, zero-extended to a word (R85). -/
def bufWord (E : Env) (s : State) (off : Nat) (w : Width) : Word :=
  match w with
  | .b1 => (bufByte E s off).setWidth 32
  | .b2 => (bufRead16 E s off).setWidth 32
  | .b4 => bufRead32 E s off

/-- What a legal read returns while `BUSY = 0` (R35, R61, R64, R65). -/
def readPlace (E : Env) (s : State) (p : Place) (w : Width) : Word :=
  match p with
  | .reg off => readReg E.P s (regAt off)
  | .dlwin off => dlwinWord s off
  | .ibuf off => bufWord E s off w
  | .obuf off => bufWord E s off .b4

/-- A legal write while `BUSY = 0`; `DLWIN` and `OBUF` ignore it (R64, R89, R90). -/
def writePlace (E : Env) (p : Place) (w : Width) (v : Word) (s : State) : State :=
  match p with
  | .reg off => writeReg E (regAt off) v s
  | .dlwin _ => s
  | .ibuf off => { s with mem := s.mem.writeLE off v w.bytes }
  | .obuf _ => s

/-- The low bytes of a word that an access of a width carries. -/
def truncTo (w : Width) (v : Word) : Word :=
  match w with
  | .b1 => (v.extractLsb' 0 8).setWidth 32
  | .b2 => (v.extractLsb' 0 16).setWidth 32
  | .b4 => v

/-- A read's data reaches the host. -/
def State.reply (v : Word) (s : State) : State := { s with replies := s.replies ++ [v] }

/-- A legal read (R90: no other effect). While busy, `STATUS` reads exactly and anything else returns a fresh
draw (R351; log 6). -/
def hostRead (E : Env) (p : Place) (w : Width) (s : State) : State :=
  if s.busy ∧ p ≠ .reg 4 then
    State.reply (truncTo w (E.free.word s.busDraw)) { s with busDraw := s.busDraw + 1 }
  else s.reply (readPlace E s p w)

/-- A legal write. While busy it is dropped and sets `HZ` (R39, R350). -/
def hostWrite (E : Env) (p : Place) (w : Width) (v : Word) (s : State) : State :=
  if s.busy then { s with hz := true } else writePlace E p w v s

/-- One poll of `WAIT`: a read of `STATUS`; while its bit 0 is 1 the host repeats it (R120). -/
def hostWait (s : State) : State :=
  let t := s.reply (statusWord s)
  if s.busy then { t with inputs := .wait :: t.inputs } else t

/-- Power-on reset (R340): the power-on state, a command in progress abandoned. What is outside ZMDSP stays:
the inputs to come and the replies received; the draws go on with fresh numbers (log 7). -/
def powerOn (s : State) : State :=
  { State.reset with
    inputs := s.inputs
    replies := s.replies
    powerOns := s.powerOns + 1
    nanDraw := s.nanDraw
    busDraw := s.busDraw }

/-- One event from outside (R92, R358); an access that is not legal is the host's fault (R308), busy or not
(log 9). -/
def hostEvent (E : Env) (ev : Input) (s : State) : Host.Outcome State Fault Refusal :=
  match ev with
  | .read addr w =>
    match locate E.P addr w with
    | .ok p => .next (hostRead E p w s)
    | .error f => .fault f
  | .write addr w v =>
    match locate E.P addr w with
    | .ok p => .next (hostWrite E p w v s)
    | .error f => .fault f
  | .wait => .next (hostWait s)
  | .powerOn => .next (powerOn s)

/-! ### What happens next (R92, R310, R356) -/

/-- The next thing the machine does. -/
inductive Action where
  /-- Nothing: no command and no event (R331). -/
  | idle
  /-- One event from outside, in the state from which it has been taken. -/
  | host (ev : Input) (s : State)
  /-- The command in progress completes. -/
  | command (w : Word)

/-- Idle, the next event is served; busy, `hold` more events are served and then the command completes, as
one atomic step (R310, R356, R357; log 5). The writes of the command come after every event served while it is
in progress, RESET's `HZ <- 0` included (DESIGN CHOICE; log 13). -/
def nextAction (s : State) : Action :=
  match s.pending with
  | none =>
    match s.inputs with
    | [] => .idle
    | ev :: rest => .host ev { s with inputs := rest }
  | some c =>
    match c.hold with
    | 0 => .command c.word
    | h + 1 =>
      match s.inputs with
      | [] => .command c.word
      | ev :: rest => .host ev { s with inputs := rest, pending := some ⟨c.word, h⟩ }

/-- A state with a command word in progress that completes at the next step. -/
def State.withCommand (s : State) (w : Word) : State := { s with pending := some ⟨w, 0⟩ }

end Sys2Proof.Machine
end

