-- ==== Sys2Proof/Machine/Dispatch.lean ====
section
/-! DEFINITION. The meaning of every command, one arm per constructor. -/

namespace Sys2Proof.Machine

def exec (i : Instr) (s : State) : Host.Outcome State Fault Refusal :=
  match i with
  | .nop => Sys2Proof.Machine.execNop s
  | .configure => Sys2Proof.Machine.execConfigure s
  | .process => Sys2Proof.Machine.execProcess s
  | .flush => Sys2Proof.Machine.execFlush s
  | .reset => Sys2Proof.Machine.execReset s
  | .ldcoef stage => Sys2Proof.Machine.execLdcoef stage s
  | .setls stage => Sys2Proof.Machine.execSetls stage s
  | .seths stage => Sys2Proof.Machine.execSeths stage s
  | .setpk stage => Sys2Proof.Machine.execSetpk stage s

end Sys2Proof.Machine
end

