-- ==== Sys2Proof/Machine/Step.lean ====
section
/-! DEFINITION. One step of the machine: nothing, one event from outside, or one whole command (R92, R310). -/

namespace Sys2Proof.Machine

/-- A command word completes: the command it decodes to, or ILLEGAL (R113, R114). -/
def runCommand (w : Word) (s : State) : Host.Outcome State Fault Refusal :=
  match decode w with
  | .ok i => exec i s
  | .error _ => .next (illegalWord s)

/-- One step. -/
def step (s : State) : Host.Outcome State Fault Refusal :=
  match nextAction s with
  | .idle => .next s
  | .host ev t => hostEvent Config.env ev t
  | .command w => runCommand w s

/-- `s` with the command word `w` written to `CMD` and about to complete (R36; log 4). ZMDSP fetches nothing
(R31): the place of the next command is the word in progress. -/
def State.withFetchWord (s : State) (nbits w : Nat) : State :=
  s.withCommand (BitVec.ofNat 32 (w % 2 ^ nbits))

end Sys2Proof.Machine
end

