-- ==== Sys2Proof/Machine/Designer.lean ====
section
/-! DEFINITION. The real-valued formulas that `DESIGN` approximates (R141, R143 to R145). They are the target
of the designer, not its bits: the spec leaves the accuracy open (R142), so no command evaluates them and
`Params.design` is not tied to them (log 2). -/

namespace Sys2Proof.Designer

/-- Five real coefficients, in the letters of `Coef`. -/
structure RealCoef where
  a0 : ℝ
  a1 : ℝ
  a2 : ℝ
  b1 : ℝ
  b2 : ℝ

/-- The numerator and denominator of a response, before the division by `a0r` (R141). -/
structure Terms (K : Type) where
  n0 : K
  n1 : K
  n2 : K
  a0r : K
  d1 : K
  d2 : K

/-- The low-shelf terms of rule R143. -/
def lowShelfTerms {K : Type} [Field K] (A beta c : K) : Terms K where
  n0 := A * ((A + 1) - (A - 1) * c + beta)
  n1 := 2 * A * ((A - 1) - (A + 1) * c)
  n2 := A * ((A + 1) - (A - 1) * c - beta)
  a0r := (A + 1) + (A - 1) * c + beta
  d1 := -2 * ((A - 1) + (A + 1) * c)
  d2 := (A + 1) + (A - 1) * c - beta

/-- The high-shelf terms of rule R144. -/
def highShelfTerms {K : Type} [Field K] (A beta c : K) : Terms K where
  n0 := A * ((A + 1) + (A - 1) * c + beta)
  n1 := -2 * A * ((A - 1) + (A + 1) * c)
  n2 := A * ((A + 1) + (A - 1) * c - beta)
  a0r := (A + 1) - (A - 1) * c + beta
  d1 := 2 * ((A - 1) - (A + 1) * c)
  d2 := (A + 1) - (A - 1) * c - beta

/-- The peaking terms of rule R145. -/
def peakingTerms {K : Type} [Field K] (A alpha c : K) : Terms K where
  n0 := 1 + alpha * A
  n1 := -2 * c
  n2 := 1 - alpha * A
  a0r := 1 + alpha / A
  d1 := -2 * c
  d2 := 1 - alpha / A

/-- `r` is the five coefficients of the terms, divided by `a0r` (R141). -/
def IsQuotient (t : Terms ℝ) (r : RealCoef) : Prop :=
  r.a0 = t.n0 / t.a0r ∧ r.a1 = t.n1 / t.a0r ∧ r.a2 = t.n2 / t.a0r ∧
  r.b1 = t.d1 / t.a0r ∧ r.b2 = t.d2 / t.a0r

/-- `r` is the real-valued design of a kind for `freq`, `fs`, `gain` and `Q`, with the intermediate terms of
rule R141: `A = sqrt(gain)`, `w0 = 2π·freq/fs`, and for the shelves `alpha = sin(w0)/2 · sqrt(2)`,
`beta = 2·sqrt(A)·alpha`, for peaking `alpha = sin(w0)/(2Q)` (R143 to R145). -/
def IsTarget (k : Kind) (freq fs gain Q : ℝ) (r : RealCoef) : Prop :=
  let A := Real.sqrt gain
  let w0 := 2 * Real.pi * freq / fs
  let c := Real.cos w0
  let beta := 2 * Real.sqrt A * (Real.sin w0 / 2 * Real.sqrt 2)
  match k with
  | .ls => IsQuotient (lowShelfTerms A beta c) r
  | .hs => IsQuotient (highShelfTerms A beta c) r
  | .pk => IsQuotient (peakingTerms A (Real.sin w0 / (2 * Q)) c) r

end Sys2Proof.Designer
end

