-- ==== Sys2Proof/Safety.lean ====
section
/-! DEFINITION. The terms the claims use: legal host accesses, the invariants of the machine, and the exact
value of a floating-point pattern. -/

namespace Sys2Proof

/-! ### Exact values -/

/-- The exact value of a finite binary64 pattern (R12). -/
def F64.val (x : F64) : ℚ := (F64.signedUnits x : ℚ) / 2 ^ 1074

/-- The exact value of a finite binary32 pattern (R12). -/
def F32.val (x : F32) : ℚ :=
  (if F32.sign x then -(F32.units x : ℚ) else (F32.units x : ℚ)) / 2 ^ 149

/-- `-0.0`. -/
def F64.negZero : F64 := 0x8000000000000000#64

/-- What denormal suppression leaves: `+0.0`, or a value whose magnitude is not below the floor (a NaN
included) (R148). -/
def F64.Snapped (x : F64) : Prop :=
  x = F64.zero ∨ F64.lt (F64.abs x) F64.denormFloor = false

namespace Machine

/-! ### Legal host accesses (R86, R88) -/

/-- A legal access at a window offset: 32 bits aligned on the register page, `DLWIN` and `OBUF`; 8, 16 or 32
bits aligned in `IBUF`; every byte inside the window's buffers (R82, R86, R88). -/
def LegalOffset (P : Params) (off : Nat) (w : Width) : Prop :=
  (off < 0x20000 ∧ w = .b4 ∧ off % 4 = 0) ∨
  (0x20000 ≤ off ∧ off % w.bytes = 0 ∧ off + w.bytes ≤ 0x20000 + P.ibufBytes) ∨
  (0x40000 ≤ off ∧ w = .b4 ∧ off % 4 = 0 ∧ off + 4 ≤ 0x40000 + P.obufBytes)

/-- The bus address of a window offset (R35, R86). -/
def busAddr (P : Params) (off : Nat) : Word := P.base + BitVec.ofNat 32 off

/-- An event the host may cause: a legal access, WAIT, or a power-on reset from outside. -/
def Input.Legal (P : Params) : Input → Prop
  | .read addr w => ∃ off, off < 0x80000 ∧ addr = busAddr P off ∧ LegalOffset P off w
  | .write addr w _ => ∃ off, off < 0x80000 ∧ addr = busAddr P off ∧ LegalOffset P off w
  | .wait => True
  | .powerOn => True

/-- A state from which every step the host can cause is legal. -/
def State.Safe (P : Params) (s : State) : Prop := ∀ ev ∈ s.inputs, ev.Legal P

/-! ### The invariants of the machine -/

/-- A window offset of one of the two buffers (R82). -/
def InBuffers (P : Params) (off : Nat) : Prop :=
  (ibufBase ≤ off ∧ off < ibufBase + P.ibufBytes) ∨ (obufBase ≤ off ∧ off < obufBase + P.obufBytes)

/-- What holds between the fields of every state (R53, R61 to R63, and the canonical form of the memory). -/
structure State.Inv (P : Params) (s : State) : Prop where
  /-- The memory is canonical. -/
  memWf : s.mem.wf
  /-- Only bytes of the buffers are listed. -/
  memIn : ∀ c ∈ s.mem, InBuffers P c.1
  /-- The delay memory has `DL_LEN` entries (R61). -/
  dlEntries : s.dl.length = s.dlLen.toNat
  /-- `DL_LEN ≤ DL_MAX` (R53). -/
  dlBound : s.dlLen.toNat ≤ P.dlMax
  /-- Both cursors are in the line (R62). -/
  cursors : s.dlLen ≠ 0 → s.dlWidx.toNat < s.dlLen.toNat ∧ s.dlRidx.toNat < s.dlLen.toNat
  /-- Without a line both cursors are 0 (R62). -/
  cursorsZero : s.dlLen = 0 → s.dlWidx = 0 ∧ s.dlRidx = 0
  /-- The read cursor trails the write cursor by `DL_DELAY` (R63). -/
  lag : s.dlLen ≠ 0 →
    (s.dlWidx.toNat + s.dlLen.toNat - s.dlRidx.toNat) % s.dlLen.toNat
      = s.dlDelay.toNat % s.dlLen.toNat

/-- Every stored filter output is snapped (R148). -/
def State.FstSnapped (s : State) : Prop :=
  ∀ i, (s.fstAt i).y1.Snapped ∧ (s.fstAt i).y2.Snapped

/-- The delay line holds no `-0.0` (R209). -/
def State.DlNoNegZero (s : State) : Prop := ∀ v ∈ s.dl, v ≠ F64.negZero

end Machine

end Sys2Proof
end

