-- ==== Sys2Proof/Certificates/Slice0/Obligations.lean ====
section
/-! DEFINITION. The statements for the provers. -/

open Sys2Proof Sys2Proof.Machine

/-! ### Words the statements share -/

/-- The host makes the next move: an event is due and either no command is in progress or the command is held
for at least one more event (R92, R356). -/
def Sys2Proof.Claims.HostMoves (s : State) (ev : Input) (rest : List Input) : Prop :=
  s.inputs = ev :: rest ∧ ∀ c, s.pending = some c → 0 < c.hold

/-- The state from which that event has been taken. -/
def Sys2Proof.Claims.taken (s : State) (rest : List Input) : State :=
  { s with inputs := rest, pending := s.pending.map fun c => ⟨c.word, c.hold - 1⟩ }

/-- `(L − D) mod L`, the non-negative remainder, and 0 for `L = 0` (R11, R202). -/
def Sys2Proof.Claims.readCursor (L D : Nat) : Nat :=
  if L = 0 then 0 else (((L : Int) - (D : Int)) % (L : Int)).toNat

/-- `roundHalfUp(f64(CFG_FS) * DL_SECONDS)` (R200). -/
def Sys2Proof.Claims.lengthAt (fs : Word) : Nat :=
  F64.roundHalfUp (F64.mul F64.quietNaN (F64.ofNat fs.toNat) F64.dlSeconds)

/-- `roundHalfUp(f64(CFG_FS) * DELAY_SECONDS)` (R201). -/
def Sys2Proof.Claims.lagAt (fs : Word) : Nat :=
  F64.roundHalfUp (F64.mul F64.quietNaN (F64.ofNat fs.toNat) F64.delaySeconds)

/-- The code of the first check of CONFIGURE that fails, if one does (the table of R256). -/
def Sys2Proof.Claims.configureCode (P : Params) (s : State) : Option ErrCode :=
  if s.cfgFs = 0 ∨ s.cfgCh = 0 then some .contract
  else if 2 < s.cfgCh.toNat ∨ 2 ≤ s.cfgEnc.toNat then some .unsupported
  else if s.cfgEnc = 1 ∧ s.ctrlFloat = .reject then some .unsupported
  else if P.dlMax < Claims.lengthAt s.cfgFs then some .unsupported
  else none

/-- `r` is the binary64 value nearest to `exact`, a tie going to the even pattern (R12). -/
def Sys2Proof.Claims.NearestEven64 (exact : ℚ) (r : F64) : Prop :=
  F64.isFinite r = true ∧
  ∀ c : F64, F64.isFinite c = true →
    |F64.val r - exact| < |F64.val c - exact| ∨
    (|F64.val r - exact| = |F64.val c - exact| ∧ (F64.val c = F64.val r ∨ F64.mag r % 2 = 0))

/-- `r` is the binary64 result of an operation whose exact result is `exact`: the nearest value, or the
infinity of its sign from the overflow threshold on (R12). -/
def Sys2Proof.Claims.Rounds64 (exact : ℚ) (r : F64) : Prop :=
  if |exact| < 2 ^ 1024 - 2 ^ 970 then Claims.NearestEven64 exact r
  else r = F64.pack (decide (exact < 0)) F64.infMag

/-- `FSM` as a number (R34). -/
def Sys2Proof.Claims.fsmNumber : Fsm → Nat
  | .unconfigured => 0
  | .configured => 1
  | .processing => 2

/-- `ERR` as a number (R40, R301). -/
def Sys2Proof.Claims.errNumber : ErrCode → Nat
  | .ok => 0
  | .illegal => 1
  | .state => 2
  | .unsupported => 3
  | .contract => 4
  | .length => 5

/-- `CLIP_MODE` and `ACT_CLIP` as a number (R41, R52). -/
def Sys2Proof.Claims.clipNumber : Clip → Nat
  | .hard => 0
  | .soft => 1

/-- `FLOAT_POLICY` as a number (R42). -/
def Sys2Proof.Claims.policyNumber : FloatPolicy → Nat
  | .accept => 0
  | .reject => 1

/-- `ACT_ENC` as a number (R52). -/
def Sys2Proof.Claims.encNumber : Enc → Nat
  | .pcm16 => 0
  | .pcmFloat => 1

/-- `ACT_CH` as a number (R52). -/
def Sys2Proof.Claims.channelNumber : Channels → Nat
  | .mono => 1
  | .stereo => 2

/-- `STATUS` as a number: BUSY in bit 0, FSM in bits 2:1, HZ in bit 3, ERR in bits 7:4 (R37 to R40). -/
def Sys2Proof.Claims.statusNumber (s : State) : Nat :=
  (if s.pending.isSome then 1 else 0) + 2 * Claims.fsmNumber s.fsm + 8 * (if s.hz then 1 else 0)
    + 16 * Claims.errNumber s.err

/-- Where a legal read lands: the register page, DLWIN, IBUF or OBUF (R81, R82). -/
def Sys2Proof.Claims.placeAt (off : Nat) : Place :=
  if off < 0x10000 then .reg off
  else if off < 0x20000 then .dlwin off
  else if off < 0x40000 then .ibuf off
  else .obuf off

/-- `n` bytes of a buffer from a window offset on, as a little-endian number (R85). -/
def Sys2Proof.Claims.bytesLE (E : Env) (s : State) (off : Nat) : Nat → Nat
  | 0 => 0
  | n + 1 => Claims.bytesLE E s off n + 256 ^ n * (bufByte E s (off + n)).toNat

/-- The left and the right chain of frame `n`, each with the state after it: decoding, the input gain on both
samples, then stages 0 to 2 and stages 3 to 5 (R250, R252). -/
def Sys2Proof.Claims.chains (E : Env) (n : Nat) (s : State) : (F64 × State) × (F64 × State) :=
  let d := decodeFrame E n s
  let s0 := s.tick 2
  let left := biquadChain E 0 (F64.mul (nan64At E s0 0) d.1 E.P.tune.inputGain) (s0.tick 2)
  (left, biquadChain E 1 (F64.mul (nan64At E s0 1) d.2 E.P.tune.inputGain) left.2)

/-- What a host reads back of one stage, register by register (R67). -/
def Sys2Proof.Claims.bankTable (s : State) (i : Fin 6) : List (Nat × F64) :=
  [(0x00, (s.coefAt i).a0), (0x08, (s.coefAt i).a1), (0x10, (s.coefAt i).a2),
   (0x18, (s.coefAt i).b1), (0x20, (s.coefAt i).b2),
   (0x40, (s.fstAt i).x1), (0x48, (s.fstAt i).x2), (0x50, (s.fstAt i).y1), (0x58, (s.fstAt i).y2)]

/-- One `dl_write` and `dl_read` per side value, as in consecutive stereo frames: the values read. -/
def Sys2Proof.Claims.delayRun : List F64 → State → List F64
  | [], _ => []
  | v :: vs, s => (dlRead (dlWrite v s)).1 :: Claims.delayRun vs (dlRead (dlWrite v s)).2

/-! ### Encoding -/

/-- R110 to R113, both directions: the words that decode are the words of well-formed commands, each the
encoding of what it decodes to. -/
def Obligations.DecodeAcceptsExactlyTheEncodedCommands : Prop :=
  ∀ (w : Word) (i : Instr), decode w = .ok i ↔ i.WellFormed ∧ encode i = w

/-- R113, the `Decode(w)` it writes out, on the fields of the word as numbers. -/
def Obligations.DecodeFollowsItsRule : Prop :=
  ∀ w : Word,
    let opc := w.toNat % 256
    let stage := w.toNat / 256 % 8
    let rsv := w.toNat / 2048
    let s := BitVec.ofNat 3 stage
    (decode w).toOption =
      if rsv ≠ 0 then none
      else if opc ≤ 0x04 then
        if stage ≠ 0 then none
        else [Instr.nop, .configure, .process, .flush, .reset][opc]?
      else if 0x10 ≤ opc ∧ opc ≤ 0x13 then
        if 5 < stage then none
        else [Instr.ldcoef s, .setls s, .seths s, .setpk s][opc - 0x10]?
      else none

/-- R114: "a command that completes with STATUS.ERR <- 1 (ILLEGAL) and changes no other state". -/
def Obligations.IllegalWordOnlySetsErr : Prop :=
  ∀ (s : State) (w : Word) (e : DecodeError), s.pending = some ⟨w, 0⟩ → decode w = .error e →
    step s = .next { s with err := .illegal, pending := none }

/-- R115: the reserved encodings are illegal, and no other word is. -/
def Obligations.ReservedEncodingsAreTheIllegalOnes : Prop :=
  ∀ (s : State) (w : Word), s.pending = some ⟨w, 0⟩ →
    let opc := w.toNat % 256
    let stage := w.toNat / 256 % 8
    ((0x05 ≤ opc ∧ opc ≤ 0x0F) ∨ 0x14 ≤ opc ∨ w.toNat / 2048 ≠ 0 ∨
      (0x10 ≤ opc ∧ opc ≤ 0x13 ∧ 6 ≤ stage) ∨ (opc ≤ 0x04 ∧ stage ≠ 0)) ↔
    (step s = .next { s with err := .illegal, pending := none } ∧ ∃ e, decode w = .error e)

/-- R121, the worked encodings. -/
def Obligations.WorkedEncodingsDecode : Prop :=
  decode 0x00000001 = .ok .configure ∧ encode .configure = 0x00000001 ∧
  decode 0x00000010 = .ok (.ldcoef 0) ∧ encode (.ldcoef 0) = 0x00000010 ∧
  decode 0x00000510 = .ok (.ldcoef 5) ∧ encode (.ldcoef 5) = 0x00000510 ∧
  decode 0x00000413 = .ok (.setpk 4) ∧ encode (.setpk 4) = 0x00000413 ∧
  decode 0x00000212 = .ok (.seths 2) ∧ encode (.seths 2) = 0x00000212 ∧
  (decode 0x00000005).toOption = none ∧ (decode 0x00000101).toOption = none ∧
  (decode 0x00000610).toOption = none ∧ (decode 0x80000002).toOption = none

/-! ### The step -/

/-- A step completes the command in progress by running the command its word decodes to; the step adds
nothing to it (R95, R310). When a command is due to complete, its hold over or no event left, is the model's
choice (DESIGN CHOICE, DEDUCED; log 5). -/
def Obligations.StepRunsTheDecodedCommand : Prop :=
  ∀ (s : State) (c : Pending) (i : Instr), s.pending = some c → (c.hold = 0 ∨ s.inputs = []) →
    decode c.word = .ok i → step s = exec i s

/-- Otherwise a step serves the next event from outside, or does nothing (R92, R331, R356). That a command in
progress lets one event be served per step, counted by its hold, is the model's choice (DESIGN CHOICE; log 5).
WAIT replies STATUS and stays at the front while BUSY is 1 (R120; as an event, log 4). -/
def Obligations.StepServesTheNextEvent : Prop :=
  (∀ (s : State) (ev : Input) (rest : List Input), Claims.HostMoves s ev rest →
    step s = hostEvent Config.env ev (Claims.taken s rest)) ∧
  (∀ s : State, s.pending = none → s.inputs = [] → step s = .next s) ∧
  (∀ (s : State) (rest : List Input), Claims.HostMoves s .wait rest →
    ∃ v : Word, v.toNat = Claims.statusNumber s ∧
      step s = .next { Claims.taken s rest with
                       replies := s.replies ++ [v]
                       inputs := if s.pending.isSome then .wait :: rest else rest })

/-- R300, R308: no step is refused; a step faults only on an access that is not legal, so a host whose
accesses are legal runs on for ever. That an access outside the window is a fault is the model's choice
(log 8). -/
def Obligations.LegalHostNeverFaults : Prop :=
  ∀ s : State,
    (∀ r, step s ≠ .refused r) ∧
    (∀ f, step s = .fault f → ∃ ev rest, s.inputs = ev :: rest ∧ ¬ ev.Legal Config.params) ∧
    (s.Safe Config.params → ∃ t, step s = .next t ∧ t.Safe Config.params)

/-- R357: a command completes after at most as many events as it is held for. The count of events as the
measure of a duration is the model's choice (log 5). -/
def Obligations.CommandCompletesInBoundedSteps : Prop :=
  ∀ (s : State) (c : Pending), s.pending = some c → s.Safe Config.params →
    ∃ k t, k ≤ c.hold + 1 ∧ core.run k s = .next t ∧ t.pending = none

/-! ### The host interface -/

/-- R36: a write of CMD issues the written word while idle and is dropped while busy; CMD reads 0. The
number of events the command is held for is a free value (log 5). -/
def Obligations.CmdWriteIssuesOrIsDropped : Prop :=
  (∀ (s : State) (v : Word) (rest : List Input),
    Claims.HostMoves s (.write (busAddr Config.params 0) .b4 v) rest →
    (s.busy = false → ∃ k,
      step s = .next { Claims.taken s rest with pending := some ⟨v, k⟩, busDraw := s.busDraw + 1 }) ∧
    (s.busy = true → step s = .next { Claims.taken s rest with hz := true })) ∧
  (∀ (s : State) (rest : List Input),
    Claims.HostMoves s (.read (busAddr Config.params 0) .b4) rest → s.busy = false →
    step s = .next { Claims.taken s rest with replies := s.replies ++ [0] })

/-- R350: a legal host write that arrives while busy is dropped and sets HZ. -/
def Obligations.WritesWhileBusyAreDropped : Prop :=
  ∀ (s : State) (addr : Word) (w : Width) (v : Word) (rest : List Input),
    Claims.HostMoves s (.write addr w v) rest → (Input.write addr w v).Legal Config.params →
    s.busy = true → step s = .next { Claims.taken s rest with hz := true }

/-- R351: while busy STATUS reads exactly, any other offset reads some value, and no read has an effect; while
idle every read is exact: it returns what its place holds, which ReadbackWindows and ComposedRegisterWords give
for every place. -/
def Obligations.ReadsWhileBusyAndIdle : Prop :=
  ∀ (s : State) (off : Nat) (w : Width) (rest : List Input),
    off < 0x80000 → LegalOffset Config.params off w →
    Claims.HostMoves s (.read (busAddr Config.params off) w) rest →
    (s.busy = true → off = 4 → ∃ v : Word, v.toNat = Claims.statusNumber s ∧
      step s = .next { Claims.taken s rest with replies := s.replies ++ [v] }) ∧
    (s.busy = true → off ≠ 4 → ∃ v,
      step s = .next { Claims.taken s rest with replies := s.replies ++ [v], busDraw := s.busDraw + 1 }) ∧
    (s.busy = false →
      step s = .next { Claims.taken s rest with
                       replies := s.replies ++ [readPlace Config.env s (Claims.placeAt off) w] })

/-- R87, R88: an access that R86 does not make legal is a bus error, whatever the state. That this holds while a
command is in progress too is DEDUCED (log 9). -/
def Obligations.IllegalAccessIsBusError : Prop :=
  ∀ (s : State) (off : Nat) (w : Width) (v : Word) (rest : List Input),
    off < 0x80000 → ¬ LegalOffset Config.params off w →
    (Claims.HostMoves s (.read (busAddr Config.params off) w) rest →
      step s = .fault (.busError (busAddr Config.params off) w)) ∧
    (Claims.HostMoves s (.write (busAddr Config.params off) w v) rest →
      step s = .fault (.busError (busAddr Config.params off) w))

/-- R89, R90, R358: an access of the host changes nothing of the core's state, no byte outside IBUF, and
while busy nothing but HZ; it ends no command. -/
def Obligations.HostAccessesTouchOnlyStaging : Prop :=
  ∀ (s t : State) (ev : Input) (rest : List Input),
    Claims.HostMoves s ev rest → ev ≠ .powerOn → step s = .next t →
    t.fsm = s.fsm ∧ t.err = s.err ∧ t.actFs = s.actFs ∧ t.actCh = s.actCh ∧ t.actEnc = s.actEnc ∧
    t.actClip = s.actClip ∧ t.outFrames = s.outFrames ∧ t.outBytes = s.outBytes ∧ t.coef = s.coef ∧
    t.fst = s.fst ∧ t.dlLen = s.dlLen ∧ t.dlDelay = s.dlDelay ∧ t.dlWidx = s.dlWidx ∧
    t.dlRidx = s.dlRidx ∧ t.dl = s.dl ∧ t.powerOns = s.powerOns ∧ t.nanDraw = s.nanDraw ∧
    (∀ off, ¬ (ibufBase ≤ off ∧ off < ibufBase + Config.params.ibufBytes) →
      bufByte Config.env t off = bufByte Config.env s off) ∧
    (s.busy = true → t.busy = true ∧ t.ctrlClip = s.ctrlClip ∧ t.ctrlFloat = s.ctrlFloat ∧
      t.cfgFs = s.cfgFs ∧ t.cfgCh = s.cfgCh ∧ t.cfgEnc = s.cfgEnc ∧ t.inLen = s.inLen ∧ t.opd = s.opd ∧
      t.mem = s.mem) ∧
    (s.busy = false → t.hz = s.hz)

/-- R89: while idle, a 32-bit write of a read-only register, a stage bank, a reserved offset, DLWIN or OBUF is
ignored, and CMD and the reserved offsets read 0. -/
def Obligations.ReadOnlyOffsetsIgnoreWrites : Prop :=
  ∀ (s : State) (off : Nat) (rest : List Input), s.busy = false → off % 4 = 0 →
    (∀ v, Claims.HostMoves s (.write (busAddr Config.params off) .b4 v) rest →
      ((off < 0x20000 ∧ off ≠ 0x00 ∧ off ≠ 0x08 ∧ off ≠ 0x10 ∧ off ≠ 0x14 ∧ off ≠ 0x18 ∧
          ¬ (0x80 ≤ off ∧ off < 0xA8)) ∨
        (0x40000 ≤ off ∧ off + 4 ≤ 0x40000 + Config.params.obufBytes)) →
      step s = .next (Claims.taken s rest)) ∧
    (Claims.HostMoves s (.read (busAddr Config.params off) .b4) rest →
      (off = 0 ∨ (0x48 ≤ off ∧ off < 0x80) ∨ (0xA8 ≤ off ∧ off < 0x100) ∨ (0x400 ≤ off ∧ off < 0x10000) ∨
        (0x100 ≤ off ∧ off < 0x400 ∧ 0x28 ≤ off % 0x80 ∧ off % 0x80 < 0x40) ∨
        (0x100 ≤ off ∧ off < 0x400 ∧ 0x60 ≤ off % 0x80)) →
      step s = .next { Claims.taken s rest with replies := s.replies ++ [0] })

/-- R41 to R43, R45 to R48: a write of a staging register while idle sets its fields and nothing else, and
reads back with the reserved bits 0. -/
def Obligations.StagingRegisterWrites : Prop :=
  ∀ (s : State) (v : Word) (rest : List Input), s.busy = false →
    (Claims.HostMoves s (.write (busAddr Config.params 0x08) .b4 v) rest → ∃ clip pol,
      step s = .next { Claims.taken s rest with ctrlClip := clip, ctrlFloat := pol } ∧
      (clip = .soft ↔ v.toNat % 2 = 1) ∧ (pol = .reject ↔ v.toNat / 2 % 2 = 1) ∧
      readPlace Config.env { s with ctrlClip := clip, ctrlFloat := pol } (.reg 0x08) .b4
        = v &&& 0x00000003) ∧
    (Claims.HostMoves s (.write (busAddr Config.params 0x10) .b4 v) rest →
      step s = .next { Claims.taken s rest with cfgFs := v }) ∧
    (Claims.HostMoves s (.write (busAddr Config.params 0x14) .b4 v) rest → ∃ ch enc,
      step s = .next { Claims.taken s rest with cfgCh := ch, cfgEnc := enc } ∧
      ch.toNat = v.toNat % 256 ∧ enc.toNat = v.toNat / 256 % 4 ∧
      readPlace Config.env { s with cfgCh := ch, cfgEnc := enc } (.reg 0x14) .b4
        = v &&& 0x000003FF) ∧
    (Claims.HostMoves s (.write (busAddr Config.params 0x18) .b4 v) rest →
      step s = .next { Claims.taken s rest with inLen := v })

/-- R58, R84: a write of one half of an operand register replaces that half of that register and nothing
else. -/
def Obligations.OperandRegisterWrites : Prop :=
  ∀ (s : State) (n : Fin 5) (v : Word) (rest : List Input), s.busy = false →
    (Claims.HostMoves s (.write (busAddr Config.params (0x80 + 8 * n.val)) .b4 v) rest → ∃ opd,
      step s = .next { Claims.taken s rest with opd := opd } ∧
      (opd.get n).toNat = (s.opd.get n).toNat / 2 ^ 32 * 2 ^ 32 + v.toNat ∧
      ∀ m, m ≠ n → opd.get m = s.opd.get m) ∧
    (Claims.HostMoves s (.write (busAddr Config.params (0x84 + 8 * n.val)) .b4 v) rest → ∃ opd,
      step s = .next { Claims.taken s rest with opd := opd } ∧
      (opd.get n).toNat = v.toNat * 2 ^ 32 + (s.opd.get n).toNat % 2 ^ 32 ∧
      ∀ m, m ≠ n → opd.get m = s.opd.get m)

/-- R64, R85, R86: a legal write of IBUF while idle stores its bytes little-endian and nothing else. -/
def Obligations.InputBufferWrites : Prop :=
  ∀ (s : State) (off : Nat) (w : Width) (v : Word) (rest : List Input), s.busy = false →
    0x20000 ≤ off → off % w.bytes = 0 → off + w.bytes ≤ 0x20000 + Config.params.ibufBytes →
    Claims.HostMoves s (.write (busAddr Config.params off) w v) rest →
    ∃ m, step s = .next { Claims.taken s rest with mem := m } ∧
      (∀ k, k < w.bytes →
        (bufByte Config.env { s with mem := m } (off + k)).toNat = v.toNat / 2 ^ (8 * k) % 256) ∧
      (∀ a, ¬ (off ≤ a ∧ a < off + w.bytes) →
        bufByte Config.env { s with mem := m } a = bufByte Config.env s a)

/-- R61, R67: what the readback windows return. Every register of a stage bank reads as its two halves, and
DLWIN reads the entries of the delay line and +0.0 past them. -/
def Obligations.ReadbackWindows : Prop :=
  (∀ (s : State) (i : Fin 6) (o : Nat) (v : F64), (o, v) ∈ Claims.bankTable s i →
    (readPlace Config.env s (.reg (0x100 + 0x80 * i.val + o)) .b4).toNat = v.toNat % 2 ^ 32 ∧
    (readPlace Config.env s (.reg (0x104 + 0x80 * i.val + o)) .b4).toNat = v.toNat / 2 ^ 32) ∧
  (∀ (s : State) (i : Nat), i < 8192 →
    let v := if i < s.dlLen.toNat then s.dlAt i else F64.zero
    (readPlace Config.env s (.dlwin (0x10000 + 8 * i)) .b4).toNat = v.toNat % 2 ^ 32 ∧
    (readPlace Config.env s (.dlwin (0x10004 + 8 * i)) .b4).toNat = v.toNat / 2 ^ 32)

/-- R35 to R58, R64, R65: what every register of the register page outside the stage banks reads, as a number,
field codes included, and what the buffers read, as little-endian bytes. -/
def Obligations.ComposedRegisterWords : Prop :=
  ∀ s : State,
    let rd := fun off => (readPlace Config.env s (.reg off) .b4).toNat
    rd 0x00 = 0 ∧
    rd 0x04 = Claims.statusNumber s ∧
    rd 0x08 = Claims.clipNumber s.ctrlClip + 2 * Claims.policyNumber s.ctrlFloat ∧
    rd 0x0C = 0x5A4D0007 ∧
    rd 0x10 = s.cfgFs.toNat ∧
    rd 0x14 = s.cfgCh.toNat + 256 * s.cfgEnc.toNat ∧
    rd 0x18 = s.inLen.toNat ∧
    rd 0x1C = s.outFrames.toNat ∧
    rd 0x20 = s.outBytes.toNat ∧
    rd 0x24 = s.actFs.toNat ∧
    rd 0x28 = Claims.channelNumber s.actCh + 256 * Claims.encNumber s.actEnc
      + 65536 * Claims.clipNumber s.actClip ∧
    rd 0x2C = s.dlLen.toNat ∧
    rd 0x30 = s.dlDelay.toNat ∧
    rd 0x34 = s.dlWidx.toNat ∧
    rd 0x38 = s.dlRidx.toNat ∧
    rd 0x3C = Config.params.dlMax ∧
    rd 0x40 = Config.params.ibufBytes ∧
    rd 0x44 = Config.params.obufBytes ∧
    (∀ n : Fin 5, rd (0x80 + 8 * n.val) = (s.opd.get n).toNat % 2 ^ 32 ∧
      rd (0x84 + 8 * n.val) = (s.opd.get n).toNat / 2 ^ 32) ∧
    (∀ off : Nat,
      (readPlace Config.env s (.ibuf off) .b1).toNat = Claims.bytesLE Config.env s off 1 ∧
      (readPlace Config.env s (.ibuf off) .b2).toNat = Claims.bytesLE Config.env s off 2 ∧
      (readPlace Config.env s (.ibuf off) .b4).toNat = Claims.bytesLE Config.env s off 4 ∧
      (readPlace Config.env s (.obuf off) .b4).toNat = Claims.bytesLE Config.env s off 4)

/-- R340: power-on reset at any time, a command in progress included, leaves exactly these values. What
stays is outside ZMDSP (the events to come, the replies) or numbers the draws (logs 4 and 7). -/
def Obligations.PowerOnLeavesTheResetValues : Prop :=
  ∀ (s : State) (rest : List Input), Claims.HostMoves s .powerOn rest →
    ∃ t, step s = .next t ∧ t.inputs = rest ∧
      t.busy = false ∧ t.fsm = .unconfigured ∧ t.hz = false ∧ t.err = .ok ∧
      t.ctrlClip = .hard ∧ t.ctrlFloat = .accept ∧ t.cfgFs.toNat = 48000 ∧ t.cfgCh.toNat = 2 ∧
      t.cfgEnc.toNat = 0 ∧ t.inLen = 0 ∧ t.outFrames = 0 ∧ t.outBytes = 0 ∧
      t.actFs.toNat = 48000 ∧ t.actCh = .stereo ∧ t.actEnc = .pcm16 ∧ t.actClip = .hard ∧
      t.dlLen = 0 ∧ t.dlDelay = 0 ∧ t.dlWidx = 0 ∧ t.dlRidx = 0 ∧ t.dl = [] ∧
      (∀ n, t.operand n = F64.zero) ∧
      (∀ i, t.coefAt i = ⟨F64.zero, F64.zero, F64.zero, F64.zero, F64.zero⟩ ∧
        t.fstAt i = ⟨F64.zero, F64.zero, F64.zero, F64.zero⟩) ∧
      (∀ off, 0x10000 ≤ off → off < 0x20000 → readPlace Config.env t (.dlwin off) .b4 = 0) ∧
      (∀ off, t.mem.read off = none)

/-! ### The lifecycle commands -/

/-- R254: the word 0x00000000 is NOP; NOP writes ERR only (and completes). -/
def Obligations.NopOnlySetsErr : Prop :=
  decode 0x00000000 = .ok .nop ∧ ∀ s : State, exec .nop s = .next { s with err := .ok, pending := none }

/-- R262: the word 0x00000003 is FLUSH, and everything FLUSH does. -/
def Obligations.FlushEffect : Prop :=
  decode 0x00000003 = .ok .flush ∧ ∀ s : State,
    exec .flush s = .next
      { s with
        fst := Vector.replicate 6 ⟨F64.zero, F64.zero, F64.zero, F64.zero⟩
        dl := List.replicate s.dlLen.toNat F64.zero
        dlWidx := 0
        dlRidx := BitVec.ofNat 32 (Claims.readCursor s.dlLen.toNat s.dlDelay.toNat)
        fsm := if s.fsm = .processing then .configured else s.fsm
        err := .ok
        pending := none }

/-- All FilterState fields and delay-line entries are `+0.0` (R203, R60). -/
def Sys2Proof.Claims.Cleared (s : State) : Prop :=
  (∀ i, s.fstAt i = ⟨F64.zero, F64.zero, F64.zero, F64.zero⟩) ∧ ∀ v ∈ s.dl, v = F64.zero

/-- R263, R264: FLUSH twice is FLUSH once, FLUSH right after an accepted CONFIGURE changes nothing, and all
history is zero after either. -/
def Obligations.FlushIsIdempotent : Prop :=
  (∀ s t : State, exec .flush s = .next t → exec .flush t = .next t ∧ Claims.Cleared t) ∧
  (∀ s t : State, exec .configure s = .next t → t.err = .ok →
    exec .flush t = .next t ∧ Claims.Cleared t)

/-- R266: the word 0x00000004 is RESET, and everything RESET does. -/
def Obligations.ResetEffect : Prop :=
  decode 0x00000004 = .ok .reset ∧ ∀ s : State,
    exec .reset s = .next
      { s with
        actFs := 48000
        actCh := .stereo
        actEnc := .pcm16
        fst := Vector.replicate 6 ⟨F64.zero, F64.zero, F64.zero, F64.zero⟩
        dl := List.replicate s.dlLen.toNat F64.zero
        dlWidx := 0
        dlRidx := BitVec.ofNat 32 (Claims.readCursor s.dlLen.toNat s.dlDelay.toNat)
        fsm := .unconfigured
        hz := false
        err := .ok
        pending := none }

/-- R255: everything an accepted CONFIGURE does. -/
def Obligations.ConfigureAcceptedEffect : Prop :=
  ∀ s : State, Claims.configureCode Config.params s = none →
    let P := Config.params
    let F := F64.ofNat s.cfgFs.toNat
    let bass := P.design .ls (P.clampFreq P.tune.bassFreq F) F P.tune.bassGain F64.zero
    let mid := P.design .pk (P.clampFreq P.tune.midFreq F) F P.tune.midGain P.tune.midQ
    let treble := P.design .hs (P.clampFreq P.tune.trebleFreq F) F P.tune.trebleGain F64.zero
    let L := Claims.lengthAt s.cfgFs
    let D := Claims.lagAt s.cfgFs
    ∃ len delay ridx : Word, len.toNat = L ∧ delay.toNat = D ∧ ridx.toNat = Claims.readCursor L D ∧
    exec .configure s = .next
      { s with
        actFs := s.cfgFs
        actCh := if s.cfgCh = 1 then .mono else .stereo
        actEnc := if s.cfgEnc = 0 then .pcm16 else .pcmFloat
        actClip := s.ctrlClip
        coef := #v[bass, mid, treble, bass, mid, treble]
        fst := Vector.replicate 6 ⟨F64.zero, F64.zero, F64.zero, F64.zero⟩
        dlLen := len
        dlDelay := delay
        dl := List.replicate L F64.zero
        dlWidx := 0
        dlRidx := ridx
        fsm := .configured
        err := .ok
        pending := none }

/-- R256, R257: a rejected CONFIGURE gives the code of the first check that fails, makes the machine
UNCONFIGURED and changes nothing else; with no failing check it is accepted. -/
def Obligations.ConfigureRejectedEffect : Prop :=
  ∀ s : State,
    (∀ code, Claims.configureCode Config.params s = some code →
      exec .configure s = .next { s with fsm := .unconfigured, err := code, pending := none }) ∧
    (Claims.configureCode Config.params s = none → ∃ t, exec .configure s = .next t ∧ t.err = .ok)

/-- R255: the designer's contract holds for every band of every CONFIGURE that passes its first check. -/
def Obligations.ConfigureMeetsTheDesignerContract : Prop :=
  ∀ fs : Word, fs ≠ 0 →
    let P := Config.params
    let F := F64.ofNat fs.toNat
    designerOk .ls (P.clampFreq P.tune.bassFreq F) F P.tune.bassGain F64.zero = true ∧
    designerOk .pk (P.clampFreq P.tune.midFreq F) F P.tune.midGain P.tune.midQ = true ∧
    designerOk .hs (P.clampFreq P.tune.trebleFreq F) F P.tune.trebleGain F64.zero = true

/-! ### PROCESS -/

/-- R251, R260: a PROCESS that passes its checks runs `N = ceil(IN_LEN / FB)` frames in order, then writes
OUT_FRAMES, OUT_BYTES, FSM and ERR; its output fits in OBUF. -/
def Obligations.ProcessCompletesAndCounts : Prop :=
  ∀ s : State, s.fsm ≠ .unconfigured → s.inLen.toNat ≤ Config.params.ibufBytes →
    ∃ (N : Nat) (frames bytes : Word),
      (let FB := s.actCh.count * (if s.actEnc = .pcm16 then 2 else 4)
       s.inLen.toNat ≤ N * FB ∧ N * FB < s.inLen.toNat + FB) ∧
      frames.toNat = N ∧ bytes.toNat = N * s.actCh.count * 4 ∧
      bytes.toNat ≤ Config.params.obufBytes ∧
      exec .process s = .next
        { processFrames Config.env N 0 s with
          outFrames := frames
          outBytes := bytes
          fsm := .processing
          err := .ok
          pending := none }

/-- R250, R260, R261: everything PROCESS leaves unchanged. It writes the histories, the delay line and its
cursors, OUT_*, FSM and ERR, and of the memory the bytes 0 to OUT_BYTES - 1 of OBUF; a PROCESS that is
refused writes ERR alone. -/
def Obligations.ProcessLeavesTheRest : Prop :=
  ∀ s t : State, exec .process s = .next t →
    t = { s with fst := t.fst, dl := t.dl, dlWidx := t.dlWidx, dlRidx := t.dlRidx, mem := t.mem,
                 nanDraw := t.nanDraw, outFrames := t.outFrames, outBytes := t.outBytes, fsm := t.fsm,
                 err := t.err, pending := none } ∧
    (t.err = .ok → ∀ off, ¬ (obufBase ≤ off ∧ off < obufBase + t.outBytes.toNat) →
      bufByte Config.env t off = bufByte Config.env s off) ∧
    (s.fsm = .unconfigured → t = { s with err := .state, pending := none }) ∧
    (s.fsm ≠ .unconfigured → Config.params.ibufBytes < s.inLen.toNat →
      t = { s with err := .length, pending := none })

/-- R250, R251: the output bytes of a PROCESS are those its frames wrote, frame `n` at `n × 4 × ACT_CH`: a
later frame does not touch them. -/
def Obligations.ProcessKeepsEveryFramesOutput : Prop :=
  ∀ s t : State, exec .process s = .next t → t.err = .ok →
    ∀ n k, n < t.outFrames.toNat → k < 4 * s.actCh.count →
      bufByte Config.env t (obufBase + n * (4 * s.actCh.count) + k)
        = bufByte Config.env (processFrame Config.env n (processFrames Config.env n 0 s))
            (obufBase + n * (4 * s.actCh.count) + k)

/-- R250: one frame, in the rule's order, with what its parts are: the chain runs bass, mid and treble in series
(R149); the limiter narrows the clamped value or `TANH64` of the gained value (R231 to R235); the store leaves
the four bytes of the sample little-endian and nothing else (R84, R85, R187). The patterns of NaN results are
free values. -/
def Obligations.FrameFollowsItsRule : Prop :=
  (∀ (E : Env) (n : Nat) (s : State),
    let c := Claims.chains E n s
    (s.actCh = .mono →
      processFrame E n s = (obufWrite (n * 4) (limit E c.1.1 c.2.2) c.2.2).tick 1) ∧
    (s.actCh = .stereo →
      let wide := midSide E c.1.1 c.2.1 c.2.2
      let s1 := (obufWrite (n * 8) (limit E wide.1.1 wide.2) wide.2).tick 1
      processFrame E n s = (obufWrite (n * 8 + 4) (limit E wide.1.2 s1) s1).tick 1)) ∧
  (∀ (E : Env) (ch : Fin 2) (x : F64) (s : State),
    let bass := biquadStep E ⟨3 * ch.val, by omega⟩ x s
    let mid := biquadStep E ⟨3 * ch.val + 1, by omega⟩ bass.1 bass.2
    biquadChain E ch x s = biquadStep E ⟨3 * ch.val + 2, by omega⟩ mid.1 mid.2) ∧
  (∀ (E : Env) (v : F64) (s : State),
    ∃ (q : F64) (q32 : F32), F64.isNaN q = true ∧ F32.isNaN q32 = true ∧
      let u := F64.mul q v E.P.tune.outputGain
      let clamped : F64 :=
        if F64.lt u 0xBFEFAE147AE147AE then 0xBFEFAE147AE147AE
        else if F64.lt 0x3FEFAE147AE147AE u then 0x3FEFAE147AE147AE
        else u
      limit E v s = fpToPcm q32 (if s.actClip = .hard then clamped else E.P.tanh64 u)) ∧
  (∀ (E : Env) (o : Nat) (v : F32) (s : State),
    (∃ m, obufWrite o v s = { s with mem := m }) ∧
    (∀ k, k < 4 →
      (bufByte E (obufWrite o v s) (0x40000 + o + k)).toNat = v.toNat / 2 ^ (8 * k) % 256) ∧
    (∀ a, ¬ (0x40000 + o ≤ a ∧ a < 0x40000 + o + 4) →
      bufByte E (obufWrite o v s) a = bufByte E s a))

/-- R261: a stream cut on a frame boundary into two PROCESS commands gives the outputs, histories, delay line
and cursors of one PROCESS over the whole. Between the two commands the host may write any bytes; what
counts is that IBUF then holds the rest of the input. Where a result is a NaN, the runs compared take the same
numbered draws, which is the model's choice (log 1). -/
def Obligations.SplitStreamGivesTheSameOutput : Prop :=
  ∀ (s t1 t2 t : State) (m : Memory) (k len2 : Nat),
    s.fsm ≠ .unconfigured → s.inLen.toNat ≤ Config.params.ibufBytes →
    s.inLen.toNat = k * frameBytes s + len2 →
    exec .process { s with inLen := BitVec.ofNat 32 (k * frameBytes s) } = .next t1 →
    (∀ o, o < len2 → bufByte Config.env { t1 with mem := m } (ibufBase + o)
      = bufByte Config.env s (ibufBase + k * frameBytes s + o)) →
    exec .process { t1 with mem := m, inLen := BitVec.ofNat 32 len2 } = .next t2 →
    exec .process s = .next t →
    t.fst = t2.fst ∧ t.dl = t2.dl ∧ t.dlWidx = t2.dlWidx ∧ t.dlRidx = t2.dlRidx ∧
    t.outFrames.toNat = t1.outFrames.toNat + t2.outFrames.toNat ∧
    t.outBytes.toNat = t1.outBytes.toNat + t2.outBytes.toNat ∧
    (∀ o, o < t1.outBytes.toNat →
      bufByte Config.env t (obufBase + o) = bufByte Config.env t1 (obufBase + o)) ∧
    (∀ o, o < t2.outBytes.toNat →
      bufByte Config.env t (obufBase + t1.outBytes.toNat + o) = bufByte Config.env t2 (obufBase + o))

/-- R64, R97: a PROCESS reads no byte of the buffers but IBUF[0 .. IN_LEN-1]: two states that agree on those
give the same histories, delay line, cursors, counts and output bytes. Where a result is a NaN, both runs take
the same numbered draws, which is the model's choice (log 1). -/
def Obligations.ProcessReadsOnlyItsInput : Prop :=
  ∀ (s t t' : State) (m : Memory),
    (∀ o, o < s.inLen.toNat → bufByte Config.env s (ibufBase + o)
      = bufByte Config.env { s with mem := m } (ibufBase + o)) →
    exec .process s = .next t → exec .process { s with mem := m } = .next t' → t.err = .ok →
    t' = { t with mem := t'.mem } ∧
    ∀ o, o < t.outBytes.toNat →
      bufByte Config.env t' (obufBase + o) = bufByte Config.env t (obufBase + o)

/-- R230, R354: the staging registers do not reach a PROCESS: the limiting policy, the format and the rate of
the stream are the latched ones. Where a result is a NaN, both runs take the same numbered draws, which is the
model's choice (log 1). -/
def Obligations.StagingDoesNotReachProcess : Prop :=
  ∀ (s t : State) (clip : Clip) (pol : FloatPolicy) (fs : Word) (ch : BitVec 8) (enc : BitVec 2)
    (opd : Vector F64 5),
    exec .process s = .next t →
    exec .process { s with ctrlClip := clip, ctrlFloat := pol, cfgFs := fs, cfgCh := ch, cfgEnc := enc,
                           opd := opd }
      = .next { t with ctrlClip := clip, ctrlFloat := pol, cfgFs := fs, cfgCh := ch, cfgEnc := enc,
                       opd := opd }

/-- R208: in mono PROCESS does not call the widener: every frame stores the limited output of the left chain
itself, and the delay line and its cursors keep their values through the whole PROCESS. -/
def Obligations.MonoBypassesTheWidener : Prop :=
  (∀ s t : State, s.actCh = .mono → exec .process s = .next t →
    t.dl = s.dl ∧ t.dlWidx = s.dlWidx ∧ t.dlRidx = s.dlRidx) ∧
  (∀ (n : Nat) (s : State), s.actCh = .mono →
    let c := Claims.chains Config.env n s
    processFrame Config.env n s = (obufWrite (n * 4) (limit Config.env c.1.1 c.2.2) c.2.2).tick 1 ∧
    c.2.2.dl = s.dl ∧ c.2.2.dlWidx = s.dlWidx ∧ c.2.2.dlRidx = s.dlRidx)

/-- R211: in stereo, every frame of a PROCESS advances both cursors by one modulo the length; without a delay
line nothing moves. -/
def Obligations.StereoFramesAdvanceTheCursors : Prop :=
  ∀ s t : State, s.actCh = .stereo → exec .process s = .next t → t.err = .ok →
    (s.dlLen = 0 → t.dl = s.dl ∧ t.dlWidx = s.dlWidx ∧ t.dlRidx = s.dlRidx) ∧
    (s.dlLen ≠ 0 → s.dlWidx.toNat < s.dlLen.toNat → s.dlRidx.toNat < s.dlLen.toNat →
      t.dlWidx.toNat = (s.dlWidx.toNat + t.outFrames.toNat) % s.dlLen.toNat ∧
      t.dlRidx.toNat = (s.dlRidx.toNat + t.outFrames.toNat) % s.dlLen.toNat)

/-! ### The coefficient commands -/

/-- R150: the word 0x00000010 + 0x100 s is LDCOEF s; LDCOEF loads the five operand registers into its stage, whatever their patterns and whatever the
lifecycle state; for a stage that does not exist the command is ILLEGAL (R113). -/
def Obligations.LdcoefEffect : Prop :=
  ∀ (s : State) (stage : BitVec 3),
    (∀ i : Fin 6, stage.toNat = i.val →
      decode (BitVec.ofNat 32 (0x10 + 0x100 * i.val)) = .ok (.ldcoef stage) ∧
      exec (.ldcoef stage) s = .next
        { s with
          coef := s.coef.set i.val ⟨s.operand 0, s.operand 1, s.operand 2, s.operand 3, s.operand 4⟩
          err := .ok
          pending := none }) ∧
    (6 ≤ stage.toNat → exec (.ldcoef stage) s = .next { s with err := .illegal, pending := none })

/-- R151 to R153: the words 0x00000011, 0x00000012 and 0x00000013 + 0x100 s are SETLS s, SETHS s and SETPK s;
they design their stage from the operand registers where the designer's
contract holds, and give CONTRACT with nothing else changed where it does not; for a stage that does not
exist they are ILLEGAL (R113). -/
def Obligations.DesignerCommandsEffect : Prop :=
  ∀ (s : State) (stage : BitVec 3) (cmd : Instr) (opc : Nat) (k : Kind) (q : F64),
    ((cmd = .setls stage ∧ opc = 0x11 ∧ k = .ls ∧ q = F64.zero) ∨
      (cmd = .seths stage ∧ opc = 0x12 ∧ k = .hs ∧ q = F64.zero) ∨
      (cmd = .setpk stage ∧ opc = 0x13 ∧ k = .pk ∧ q = s.operand 3)) →
    (∀ i : Fin 6, stage.toNat = i.val →
      decode (BitVec.ofNat 32 (opc + 0x100 * i.val)) = .ok cmd ∧
      (designerOk k (s.operand 0) (s.operand 1) (s.operand 2) q = true →
        exec cmd s = .next
          { s with
            coef := s.coef.set i.val
              (Config.params.design k (s.operand 0) (s.operand 1) (s.operand 2) q)
            err := .ok
            pending := none }) ∧
      (designerOk k (s.operand 0) (s.operand 1) (s.operand 2) q = false →
        exec cmd s = .next { s with err := .contract, pending := none })) ∧
    (6 ≤ stage.toNat → exec cmd s = .next { s with err := .illegal, pending := none })

/-- R146: `designer_ok`, in exact values; `fs / 2` is the binary64 division. -/
def Obligations.DesignerContract : Prop :=
  ∀ (k : Kind) (freq fs gain q : F64),
    designerOk k freq fs gain q = true ↔
      F64.isFinite freq = true ∧ F64.isFinite fs = true ∧ F64.isFinite gain = true ∧
      0 < F64.val fs ∧ 0 < F64.val freq ∧
      F64.val freq < F64.val (F64.div F64.quietNaN fs F64.two) ∧ 0 < F64.val gain ∧
      (k = .pk → F64.isFinite q = true ∧ 0 < F64.val q)

/-- R143 to R145: in real arithmetic a gain of 1 makes every response the identity transfer function. -/
def Obligations.UnitGainDesignIsIdentity : Prop :=
  ∀ (k : Kind) (freq fs Q : ℝ) (r : Designer.RealCoef),
    0 < freq → freq < fs / 2 → (k = .pk → 0 < Q) → Designer.IsTarget k freq fs 1 Q r →
    r.a0 = 1 ∧ r.a1 = r.b1 ∧ r.a2 = r.b2

/-! ### All commands -/

/-- R268 and R300: every command word completes, with the next FSM and ERR of the table. -/
def Obligations.LifecycleTransitions : Prop :=
  ∀ (s : State) (w : Word), s.pending = some ⟨w, 0⟩ →
    ∃ t, step s = .next t ∧ t.pending = none ∧
      (t.fsm, t.err) =
        match decode w with
        | .error _ => (s.fsm, ErrCode.illegal)
        | .ok .nop => (s.fsm, .ok)
        | .ok .configure =>
          match Claims.configureCode Config.params s with
          | none => (.configured, .ok)
          | some code => (.unconfigured, code)
        | .ok .process =>
          if s.fsm = .unconfigured then (.unconfigured, .state)
          else if s.inLen.toNat ≤ Config.params.ibufBytes then (.processing, .ok)
          else (s.fsm, .length)
        | .ok .flush => (if s.fsm = .unconfigured then .unconfigured else .configured, .ok)
        | .ok .reset => (.unconfigured, .ok)
        | .ok (.ldcoef _) => (s.fsm, .ok)
        | .ok (.setls _) =>
          (s.fsm, if designerOk .ls (s.operand 0) (s.operand 1) (s.operand 2) F64.zero then .ok else .contract)
        | .ok (.seths _) =>
          (s.fsm, if designerOk .hs (s.operand 0) (s.operand 1) (s.operand 2) F64.zero then .ok else .contract)
        | .ok (.setpk _) =>
          (s.fsm, if designerOk .pk (s.operand 0) (s.operand 1) (s.operand 2) (s.operand 3)
            then .ok else .contract)

/-- R302: a command that ends with a code other than OK has written nothing but its code, and CONFIGURE also
`FSM <- UNCONFIGURED`. -/
def Obligations.ErrorsWriteOnlyTheirCode : Prop :=
  ∀ (s t : State) (w : Word), s.pending = some ⟨w, 0⟩ → step s = .next t → t.err ≠ .ok →
    t = { s with
          err := t.err
          pending := none
          fsm := if decode w = .ok .configure then .unconfigured else s.fsm }

/-- R39, R49, R50, R53, R54, R58, R59, R64, R230, R358: which command may write what. -/
def Obligations.CommandsWriteOnlyTheirOwnState : Prop :=
  ∀ (i : Instr) (s t : State), exec i s = .next t →
    (t.ctrlClip = s.ctrlClip ∧ t.ctrlFloat = s.ctrlFloat ∧ t.cfgFs = s.cfgFs ∧ t.cfgCh = s.cfgCh ∧
      t.cfgEnc = s.cfgEnc ∧ t.inLen = s.inLen ∧ t.opd = s.opd ∧ t.inputs = s.inputs ∧
      t.replies = s.replies ∧ t.powerOns = s.powerOns ∧ t.busDraw = s.busDraw) ∧
    (∀ off, off < obufBase → bufByte Config.env t off = bufByte Config.env s off) ∧
    (i ≠ .reset → t.hz = s.hz) ∧
    (i ≠ .configure → t.actClip = s.actClip ∧ t.dlLen = s.dlLen ∧ t.dlDelay = s.dlDelay) ∧
    (i ≠ .configure → i ≠ .reset → t.actFs = s.actFs ∧ t.actCh = s.actCh ∧ t.actEnc = s.actEnc) ∧
    (i ≠ .process → t.outFrames = s.outFrames ∧ t.outBytes = s.outBytes ∧ t.mem = s.mem) ∧
    (i = .nop ∨ i = .process ∨ i = .flush ∨ i = .reset → t.coef = s.coef) ∧
    (i ≠ .configure → i ≠ .process → i ≠ .flush → i ≠ .reset →
      t.fst = s.fst ∧ t.dl = s.dl ∧ t.dlWidx = s.dlWidx ∧ t.dlRidx = s.dlRidx ∧ t.fsm = s.fsm)

/-! ### Invariants -/

/-- The power-on state meets the invariants. -/
def Obligations.ResetMeetsTheInvariants : Prop :=
  State.reset.Inv Config.params ∧ State.reset.FstSnapped ∧ State.reset.DlNoNegZero

/-- R53, R61 to R63 and the canonical form of the memory: every step keeps them, from every state. -/
def Obligations.StepKeepsTheInvariant : Prop :=
  ∀ s t : State, s.Inv Config.params → step s = .next t → t.Inv Config.params

/-- R148: every step keeps every stored filter output snapped. -/
def Obligations.StepKeepsFilterOutputsSnapped : Prop :=
  ∀ s t : State, s.FstSnapped → step s = .next t → t.FstSnapped

/-- R209: every step keeps the delay line free of -0.0. -/
def Obligations.StepKeepsTheDelayLineFreeOfNegativeZero : Prop :=
  ∀ s t : State, s.DlNoNegZero → step s = .next t → t.DlNoNegZero

/-! ### The sub-units -/

/-- R147: one filter step, in the rule's order; the patterns of NaN results are free values. -/
def Obligations.BiquadStepFollowsItsRule : Prop :=
  ∀ (E : Env) (i : Fin 6) (x : F64) (s : State),
    ∃ q : Nat → F64, (∀ n, F64.isNaN (q n) = true) ∧
    let c := s.coefAt i
    let h := s.fstAt i
    let t1 := F64.mul (q 0) c.a0 x
    let t2 := F64.add (q 2) t1 (F64.mul (q 1) c.a1 h.x1)
    let t3 := F64.add (q 4) t2 (F64.mul (q 3) c.a2 h.x2)
    let t4 := F64.sub (q 6) t3 (F64.mul (q 5) c.b1 h.y1)
    let t5 := F64.sub (q 8) t4 (F64.mul (q 7) c.b2 h.y2)
    let t := if F64.lt (F64.abs t5) F64.denormFloor then F64.zero else t5
    (biquadStep E i x s).1 = t ∧
    (biquadStep E i x s).2 = { s with
      fst := s.fst.set i.val ⟨x, h.x1, t, h.y1⟩
      nanDraw := s.nanDraw + 9 }

/-- R155: a stage with the identity coefficients and finite history passes a finite input, snapped. -/
def Obligations.IdentityStagePassesItsInput : Prop :=
  ∀ (E : Env) (i : Fin 6) (x : F64) (s : State),
    s.coefAt i = ⟨F64.one, F64.zero, F64.zero, F64.zero, F64.zero⟩ →
    (let h := s.fstAt i
     F64.isFinite h.x1 = true ∧ F64.isFinite h.x2 = true ∧ F64.isFinite h.y1 = true ∧
       F64.isFinite h.y2 = true) →
    F64.isFinite x = true →
    (biquadStep E i x s).1
      = if F64.lt (F64.abs x) F64.denormFloor then F64.zero else x

/-- R182, R183: decoding is exact. A PCM16 sample is its integer divided by 32768 and never -0.0; a PCM_FLOAT
sample keeps its value and sign, infinities included, and a NaN stays a NaN. -/
def Obligations.DecodingIsExact : Prop :=
  (∀ v : BitVec 16, F64.isFinite (pcm16ToFp v) = true ∧ F64.val (pcm16ToFp v) = (v.toInt : ℚ) / 32768 ∧
    pcm16ToFp v ≠ F64.negZero) ∧
  (∀ (q : F64) (w : F32),
    (F32.mag w < F32.infMag → F64.isFinite (pcmfToFp q w) = true ∧
      F64.val (pcmfToFp q w) = F32.val w ∧ F64.sign (pcmfToFp q w) = F32.sign w) ∧
    (F32.mag w = F32.infMag → pcmfToFp q w = F64.pack (F32.sign w) F64.infMag) ∧
    (F32.isNaN w = true → pcmfToFp q w = q))

/-- R83, R184, R185: a frame that does not fit in the input decodes as silence; a whole frame decodes as its
interleaved samples, each composed of its bytes of IBUF little-endian, a mono sample duplicated. -/
def Obligations.FrameDecoding : Prop :=
  ∀ (E : Env) (n : Nat) (s : State),
    let SB := if s.actEnc = .pcm16 then 2 else 4
    let FB := s.actCh.count * SB
    let sample := fun (o : Nat) (r : F64) =>
      (s.actEnc = .pcm16 → ∃ v : BitVec 16, v.toNat = Claims.bytesLE E s (0x20000 + o) 2 ∧
        r = pcm16ToFp v) ∧
      (s.actEnc = .pcmFloat → ∃ (w : F32) (q : F64), w.toNat = Claims.bytesLE E s (0x20000 + o) 4 ∧
        F64.isNaN q = true ∧ r = pcmfToFp q w)
    (s.inLen.toNat < n * FB + FB → decodeFrame E n s = (F64.zero, F64.zero)) ∧
    (n * FB + FB ≤ s.inLen.toNat →
      sample (n * FB) (decodeFrame E n s).1 ∧
      (s.actCh = .mono → (decodeFrame E n s).2 = (decodeFrame E n s).1) ∧
      (s.actCh = .stereo → sample (n * FB + SB) (decodeFrame E n s).2))

/-- R186: narrowing gives the nearest binary32, ties to even, keeps the sign of zero, overflows from
`2^128 - 2^103` on, and maps a NaN to the free pattern. -/
def Obligations.NarrowingIsNearestEven : Prop :=
  ∀ (q : F32) (v : F64),
    (F64.isNaN v = true → fpToPcm q v = q) ∧
    (F64.isInf v = true → fpToPcm q v = F32.pack (F64.sign v) F32.infMag) ∧
    (F64.isFinite v = true → 2 ^ 128 - 2 ^ 103 ≤ |F64.val v| →
      fpToPcm q v = F32.pack (F64.sign v) F32.infMag) ∧
    (F64.isFinite v = true → |F64.val v| < 2 ^ 128 - 2 ^ 103 →
      let r := fpToPcm q v
      F32.mag r < F32.infMag ∧ F32.sign r = F64.sign v ∧
      ∀ c : F32, F32.mag c < F32.infMag →
        |F32.val r - F64.val v| < |F32.val c - F64.val v| ∨
        (|F32.val r - F64.val v| = |F32.val c - F64.val v| ∧
          (F32.val c = F32.val r ∨ F32.mag r % 2 = 0)))

/-- R12: the four operations. On finite values they are the exact results rounded to the nearest binary64, ties
to even; a product or quotient has the sign of its operands' signs taken together, a zero included, and a sum
or difference that is exactly zero is +0.0 unless both of its terms are -0.0. Infinities, a zero divisor and
NaN operands give what IEEE 754 says; a NaN result is the pattern `q` handed in. The comparison is the ordered
one, and integers convert exactly. -/
def Obligations.ArithmeticIsNearestEven : Prop :=
  (∀ q a b : F64, F64.isFinite a = true → F64.isFinite b = true →
    Claims.Rounds64 (F64.val a + F64.val b) (F64.add q a b) ∧
    Claims.Rounds64 (F64.val a - F64.val b) (F64.sub q a b) ∧
    Claims.Rounds64 (F64.val a * F64.val b) (F64.mul q a b) ∧
    (F64.val b ≠ 0 → Claims.Rounds64 (F64.val a / F64.val b) (F64.div q a b)) ∧
    (F64.val a + F64.val b = 0 →
      F64.add q a b = if a = F64.negZero ∧ b = F64.negZero then F64.negZero else F64.zero) ∧
    (F64.val a - F64.val b = 0 →
      F64.sub q a b = if a = F64.negZero ∧ b = F64.zero then F64.negZero else F64.zero) ∧
    F64.sign (F64.mul q a b) = (F64.sign a != F64.sign b) ∧
    (F64.val b ≠ 0 → F64.sign (F64.div q a b) = (F64.sign a != F64.sign b)) ∧
    (F64.val b = 0 → F64.val a ≠ 0 →
      F64.div q a b = F64.pack (F64.sign a != F64.sign b) F64.infMag) ∧
    (F64.val b = 0 → F64.val a = 0 → F64.div q a b = q) ∧
    (F64.lt a b = true ↔ F64.val a < F64.val b)) ∧
  (∀ q a b : F64, F64.isNaN a = true ∨ F64.isNaN b = true →
    F64.add q a b = q ∧ F64.sub q a b = q ∧ F64.mul q a b = q ∧ F64.div q a b = q ∧
    F64.lt a b = false) ∧
  (∀ q a b : F64, F64.isInf a = true → F64.isInf b = true →
    F64.add q a b = (if F64.sign a = F64.sign b then a else q) ∧
    F64.sub q a b = (if F64.sign a = F64.sign b then q else a) ∧
    F64.mul q a b = F64.pack (F64.sign a != F64.sign b) F64.infMag ∧
    F64.div q a b = q ∧
    (F64.lt a b = true ↔ F64.sign a = true ∧ F64.sign b = false)) ∧
  (∀ q a b : F64, F64.isInf a = true → F64.isFinite b = true →
    F64.add q a b = a ∧ F64.add q b a = a ∧ F64.sub q a b = a ∧
    F64.sub q b a = F64.pack (!F64.sign a) F64.infMag ∧
    F64.mul q a b = (if F64.val b = 0 then q else F64.pack (F64.sign a != F64.sign b) F64.infMag) ∧
    F64.mul q b a = F64.mul q a b ∧
    F64.div q a b = F64.pack (F64.sign a != F64.sign b) F64.infMag ∧
    F64.div q b a = F64.pack (F64.sign a != F64.sign b) 0 ∧
    (F64.lt a b = true ↔ F64.sign a = true) ∧ (F64.lt b a = true ↔ F64.sign a = false)) ∧
  (∀ n : Nat, n ≤ 2 ^ 53 → F64.isFinite (F64.ofNat n) = true ∧ F64.val (F64.ofNat n) = n) ∧
  (∀ i : Int, i.natAbs ≤ 2 ^ 53 → F64.isFinite (F64.ofInt i) = true ∧ F64.val (F64.ofInt i) = i)

/-- R215: the geometry table. -/
def Obligations.GeometryTable : Prop :=
  ∀ row ∈ ([(1, 0, 0, 0), (24, 0, 0, 0), (25, 1, 0, 0), (75, 2, 0, 0), (100, 2, 0, 0), (125, 3, 1, 2),
      (250, 5, 1, 4), (375, 8, 2, 6), (1000, 20, 4, 16), (8000, 160, 32, 128), (11025, 221, 44, 177),
      (16000, 320, 64, 256), (22050, 441, 88, 353), (32000, 640, 128, 512), (44100, 882, 176, 706),
      (48000, 960, 192, 768), (88200, 1764, 353, 1411), (96000, 1920, 384, 1536),
      (176400, 3528, 706, 2822), (192000, 3840, 768, 3072), (384000, 7680, 1536, 6144),
      (409600, 8192, 1638, 6554)] : List (Nat × Nat × Nat × Nat)),
    delayLength (F64.ofNat row.1) = row.2.1 ∧ delayLag (F64.ofNat row.1) = row.2.2.1 ∧
    initialReadCursor row.2.1 row.2.2.1 = row.2.2.2

/-- R201: the lag is below the length at every rate at which there is a line, and 0 up to 124 Hz. -/
def Obligations.LagIsBelowTheLength : Prop :=
  ∀ fs : Word, Claims.lagAt fs ≤ Claims.lengthAt fs ∧
    (0 < Claims.lengthAt fs → Claims.lagAt fs < Claims.lengthAt fs) ∧
    (fs.toNat ≤ 124 → Claims.lagAt fs = 0)

/-- R204, R205, R210: from a cleared line of length `L > D`, the value read in stereo frame `k` is the side
value written in frame `k - D`, and +0.0 in the first `D` frames. -/
def Obligations.DelayLineDelaysByTheLag : Prop :=
  ∀ (s : State) (sides : List F64) (k : Nat), s.dlDelay.toNat < s.dlLen.toNat → k < sides.length →
    (Claims.delayRun sides (dlInit s))[k]?
      = some (if k < s.dlDelay.toNat then F64.zero else sides.getD (k - s.dlDelay.toNat) F64.zero)

/-- R206, R207: the widener, in the rule's order; the patterns of NaN results are free values. -/
def Obligations.WidenerFollowsItsRule : Prop :=
  ∀ (E : Env) (l r : F64) (s : State),
    ∃ q : Nat → F64, (∀ n, F64.isNaN (q n) = true) ∧
    let mid := F64.div (q 1) (F64.add (q 0) l r) F64.two
    let side := F64.div (q 3) (F64.sub (q 2) l r) F64.two
    (s.dlLen = 0 →
      midSide E l r s = ((F64.add (q 4) mid side, F64.sub (q 5) mid side),
        { s with nanDraw := s.nanDraw + 9 })) ∧
    (s.dlLen ≠ 0 →
      let dl := s.dl.set s.dlWidx.toNat side
      let d := dl.getD s.dlRidx.toNat F64.zero
      let s2 := F64.mul (q 8) (F64.add (q 7) side (F64.mul (q 6) d F64.delayMix)) E.P.tune.spatialWidth
      midSide E l r s = ((F64.add (q 4) mid s2, F64.sub (q 5) mid s2),
        { s with
          dl := dl
          dlWidx := BitVec.ofNat 32 ((s.dlWidx.toNat + 1) % s.dlLen.toNat)
          dlRidx := BitVec.ofNat 32 ((s.dlRidx.toNat + 1) % s.dlLen.toNat)
          nanDraw := s.nanDraw + 9 }))

/-- R213: equal finite inputs (never -0.0, R148) and a delay line of +0.0 give equal outputs and leave the
line at +0.0; the outputs are the input where its double does not overflow. -/
def Obligations.EqualInputsGiveEqualOutputs : Prop :=
  ∀ (E : Env) (s : State) (l : F64), E.P.Ok → F64.isFinite l = true → l ≠ F64.negZero →
    (∀ v ∈ s.dl, v = F64.zero) →
    let r := midSide E l l s
    r.1.1 = r.1.2 ∧ (∀ v ∈ r.2.dl, v = F64.zero) ∧
    (F64.isFinite (F64.add F64.quietNaN l l) = true → r.1.1 = l)

/-- R233, R236, R237: where the gained value is not a NaN, the HARD output lies between the patterns
0xBF7D70A4 and 0x3F7D70A4 by value and the SOFT output in [-1, 1]; a NaN gives a NaN. R238: with a positive
output gain both policies preserve the sign, map +0.0 to +0.0 and never reorder two samples, with a negative
one they invert the sign, and with a gain of 0 every finite value gives a zero. That `TANH64` keeps the sign
where its value is a zero is DEDUCED (log 2). -/
def Obligations.LimiterOutputIsBounded : Prop :=
  ∀ (P : Params) (q : F64) (q32 : F32), P.Ok → F64.isNaN q = true → F32.isNaN q32 = true →
    let g := P.tune.outputGain
    (∀ v : F64, F64.isNaN (F64.mul q v g) = false →
      (let w := limitWith P .hard q q32 v
       F32.isNaN w = false ∧ F32.key 0xBF7D70A4 ≤ F32.key w ∧ F32.key w ≤ F32.key 0x3F7D70A4) ∧
      (let w := limitWith P .soft q q32 v
       F32.isNaN w = false ∧ F32.key 0xBF800000 ≤ F32.key w ∧ F32.key w ≤ F32.key 0x3F800000)) ∧
    (∀ (c : Clip) (v : F64), F64.isNaN (F64.mul q v g) = true → limitWith P c q q32 v = q32) ∧
    (∀ (c : Clip) (v : F64), 0 < F64.val g → F64.isNaN v = false →
      F32.sign (limitWith P c q q32 v) = F64.sign v) ∧
    (∀ c : Clip, 0 < F64.val g → limitWith P c q q32 F64.zero = 0x00000000) ∧
    (∀ (c : Clip) (v v' : F64), 0 < F64.val g → F64.le v v' = true →
      F32.key (limitWith P c q q32 v) ≤ F32.key (limitWith P c q q32 v')) ∧
    (∀ (c : Clip) (v : F64), F64.val g < 0 → F64.isNaN v = false →
      F32.sign (limitWith P c q q32 v) = !F64.sign v) ∧
    (∀ (c : Clip) (v : F64), F64.val g = 0 → F64.isFinite v = true →
      F32.mag (limitWith P c q q32 v) = 0)
end

