-- ==== Sys2Proof/Laws/Memory.lean ====
section
/-! SUPPORT. The byte memory: reading after writing, and the canonical form kept by every operation. -/

namespace Sys2Proof.Machine

/-- A read after a write: the byte written at its offset, every other offset as before. -/
theorem Memory.read_write (m : Memory) (x y : Nat) (v : Byte) :
    (m.write x v).read y = if x = y then some v else m.read y := by
  induction m with
  | nil => rfl
  | cons c m ih =>
    obtain ⟨a, b⟩ := c
    simp only [Memory.write]
    split
    · rfl
    · split
      · next hx => subst hx; simp only [Memory.read]; split <;> rfl
      · next hx =>
        simp only [Memory.read, ih]
        by_cases h : a = y
        · have : x ≠ y := fun hxy => hx (hxy.trans h.symm)
          simp [h, this]
        · simp [h]

@[simp] theorem Memory.read_write_same (m : Memory) (x : Nat) (v : Byte) :
    (m.write x v).read x = some v := by simp [Memory.read_write]

theorem Memory.read_write_other (m : Memory) {x y : Nat} (v : Byte) (h : x ≠ y) :
    (m.write x v).read y = m.read y := by simp [Memory.read_write, h]

/-- What a write lists: the byte written and what was listed. -/
theorem Memory.mem_write {m : Memory} {x : Nat} {v : Byte} {c : Host.Cell}
    (h : c ∈ m.write x v) : c = (x, v) ∨ c ∈ m := by
  induction m with
  | nil => left; simpa [Memory.write] using h
  | cons d m ih =>
    simp only [Memory.write] at h
    split at h
    · simpa using h
    · split at h
      · rcases List.mem_cons.1 h with h | h <;> simp [h]
      · rcases List.mem_cons.1 h with h | h
        · simp [h]
        · rcases ih h with h | h <;> simp [h]

/-- A write keeps the canonical form. -/
theorem Memory.wf_write {m : Memory} (x : Nat) (v : Byte) (h : m.wf) : (m.write x v).wf := by
  induction m with
  | nil => simp [Memory.write, Memory.wf]
  | cons d m ih =>
    obtain ⟨a, b⟩ := d
    have hall : ∀ c ∈ m, a < c.1 := by
      intro c hc
      exact (List.pairwise_cons.1 h).1 _ (List.mem_map_of_mem hc)
    have htail : Memory.wf m := (List.pairwise_cons.1 h).2
    simp only [Memory.write]
    split
    · next hx =>
      refine List.pairwise_cons.2 ⟨?_, h⟩
      intro k hk
      rcases List.mem_cons.1 hk with rfl | hk
      · exact hx
      · obtain ⟨c, hc, rfl⟩ := List.mem_map.1 hk
        exact lt_trans hx (hall c hc)
    · split
      · next hx => subst hx; exact h
      · next h1 h2 =>
        refine List.pairwise_cons.2 ⟨?_, ih htail⟩
        intro k hk
        obtain ⟨c, hc, rfl⟩ := List.mem_map.1 hk
        rcases Memory.mem_write hc with rfl | hc
        · show a < x; omega
        · exact hall c hc

/-- A little-endian store keeps the canonical form. -/
theorem Memory.wf_writeLE {m : Memory} (off : Nat) (v : Word) (n : Nat) (h : m.wf) :
    (m.writeLE off v n).wf := by
  induction n with
  | zero => exact h
  | succ n ih => exact Memory.wf_write _ _ ih

/-- What a little-endian store lists: bytes of the store and what was listed. -/
theorem Memory.mem_writeLE {m : Memory} {off : Nat} {v : Word} {n : Nat} {c : Host.Cell}
    (h : c ∈ m.writeLE off v n) : (off ≤ c.1 ∧ c.1 < off + n) ∨ c ∈ m := by
  induction n with
  | zero => exact .inr h
  | succ n ih =>
    rcases Memory.mem_write h with rfl | h
    · left; exact ⟨by simp, by simp⟩
    · rcases ih h with h | h
      · left; omega
      · exact .inr h

/-- A read after a little-endian store: byte `k` of the value inside it (R85), as before outside it. -/
theorem Memory.read_writeLE (m : Memory) (off : Nat) (v : Word) (n y : Nat) :
    (m.writeLE off v n).read y
      = if off ≤ y ∧ y < off + n then some (v.extractLsb' (8 * (y - off)) 8) else m.read y := by
  induction n with
  | zero => simp only [Memory.writeLE]; split <;> [omega; rfl]
  | succ n ih =>
    rw [Memory.writeLE, Memory.read_write, ih]
    by_cases h : off + n = y
    · subst h; simp
    · by_cases h2 : off ≤ y ∧ y < off + n
      · rw [if_neg h, if_pos h2, if_pos ⟨h2.1, by omega⟩]
      · rw [if_neg h, if_neg h2, if_neg (by omega)]

/-- A buffer byte depends on the memory and the power-on number alone. -/
theorem bufByte_congr (E : Env) {s t : State} {off : Nat} (h : s.mem.read off = t.mem.read off)
    (hp : s.powerOns = t.powerOns) : bufByte E s off = bufByte E t off := by
  simp [bufByte, h, hp]

/-- A buffer byte after a store of an output sample. -/
theorem bufByte_obufWrite (E : Env) (o : Nat) (v : F32) (s : State) (off : Nat) :
    bufByte E (obufWrite o v s) off
      = if obufBase + o ≤ off ∧ off < obufBase + o + 4 then v.extractLsb' (8 * (off - (obufBase + o))) 8
        else bufByte E s off := by
  simp only [bufByte, obufWrite, Memory.read_writeLE]
  split <;> rfl

end Sys2Proof.Machine
end

