-- ==== Sys2Proof/Laws/PerInstr.lean ====
section
/-! SUPPORT. Per command: the three fields of its word are its opcode, its stage and 0 (R110 to R112). -/

namespace Sys2Proof.Laws.EncodedFields

/-- The fields of the command's word (R110). -/
def Statement (i : Instr) : Prop :=
  opcField (encode i) = i.opc ∧ stageField (encode i) = i.stage ∧ rsvField (encode i) = 0

/-- Fields of a word put together from fields. -/
theorem fields_append (stage : BitVec 3) (opc : BitVec 8) :
    opcField ((0 : BitVec 21) ++ stage ++ opc) = opc ∧
    stageField ((0 : BitVec 21) ++ stage ++ opc) = stage ∧
    rsvField ((0 : BitVec 21) ++ stage ++ opc) = 0 := by
  refine ⟨BitVec.extractLsb'_append_eq_right, ?_, ?_⟩
  · refine BitVec.eq_of_getLsbD_eq fun i hi => ?_
    simp only [stageField, BitVec.getLsbD_extractLsb', hi, decide_true, Bool.true_and]
    rw [BitVec.getLsbD_append, if_neg (by omega), BitVec.getLsbD_append, if_pos (by omega)]
    congr 1
    omega
  · refine BitVec.eq_of_getLsbD_eq fun i hi => ?_
    simp only [rsvField, BitVec.getLsbD_extractLsb', hi, decide_true, Bool.true_and]
    rw [BitVec.getLsbD_append, if_neg (by omega), BitVec.getLsbD_append, if_neg (by omega)]
    simp

theorem nop : Statement .nop := fields_append _ _

theorem configure : Statement .configure := fields_append _ _

theorem process : Statement .process := fields_append _ _

theorem flush : Statement .flush := fields_append _ _

theorem reset : Statement .reset := fields_append _ _

theorem ldcoef (stage : BitVec 3) : Statement (.ldcoef stage) := fields_append _ _

theorem setls (stage : BitVec 3) : Statement (.setls stage) := fields_append _ _

theorem seths (stage : BitVec 3) : Statement (.seths stage) := fields_append _ _

theorem setpk (stage : BitVec 3) : Statement (.setpk stage) := fields_append _ _

end Sys2Proof.Laws.EncodedFields
end

