-- ==== Sys2Proof/Laws/State.lean ====
section
/-! SUPPORT. What each named update of State does to each field, so that no proof unfolds a record update. -/

namespace Sys2Proof.Machine

/-! ### complete -/

@[simp] theorem State.complete_pending (c : ErrCode) (s : State) : (s.complete c).pending = none := rfl
@[simp] theorem State.complete_fsm (c : ErrCode) (s : State) : (s.complete c).fsm = s.fsm := rfl
@[simp] theorem State.complete_hz (c : ErrCode) (s : State) : (s.complete c).hz = s.hz := rfl
@[simp] theorem State.complete_err (c : ErrCode) (s : State) : (s.complete c).err = c := rfl
@[simp] theorem State.complete_ctrlClip (c : ErrCode) (s : State) :
    (s.complete c).ctrlClip = s.ctrlClip := rfl
@[simp] theorem State.complete_ctrlFloat (c : ErrCode) (s : State) :
    (s.complete c).ctrlFloat = s.ctrlFloat := rfl
@[simp] theorem State.complete_cfgFs (c : ErrCode) (s : State) : (s.complete c).cfgFs = s.cfgFs := rfl
@[simp] theorem State.complete_cfgCh (c : ErrCode) (s : State) : (s.complete c).cfgCh = s.cfgCh := rfl
@[simp] theorem State.complete_cfgEnc (c : ErrCode) (s : State) : (s.complete c).cfgEnc = s.cfgEnc := rfl
@[simp] theorem State.complete_inLen (c : ErrCode) (s : State) : (s.complete c).inLen = s.inLen := rfl
@[simp] theorem State.complete_opd (c : ErrCode) (s : State) : (s.complete c).opd = s.opd := rfl
@[simp] theorem State.complete_actFs (c : ErrCode) (s : State) : (s.complete c).actFs = s.actFs := rfl
@[simp] theorem State.complete_actCh (c : ErrCode) (s : State) : (s.complete c).actCh = s.actCh := rfl
@[simp] theorem State.complete_actEnc (c : ErrCode) (s : State) : (s.complete c).actEnc = s.actEnc := rfl
@[simp] theorem State.complete_actClip (c : ErrCode) (s : State) : (s.complete c).actClip = s.actClip := rfl
@[simp] theorem State.complete_outFrames (c : ErrCode) (s : State) :
    (s.complete c).outFrames = s.outFrames := rfl
@[simp] theorem State.complete_outBytes (c : ErrCode) (s : State) :
    (s.complete c).outBytes = s.outBytes := rfl
@[simp] theorem State.complete_coef (c : ErrCode) (s : State) : (s.complete c).coef = s.coef := rfl
@[simp] theorem State.complete_fst (c : ErrCode) (s : State) : (s.complete c).fst = s.fst := rfl
@[simp] theorem State.complete_dlLen (c : ErrCode) (s : State) : (s.complete c).dlLen = s.dlLen := rfl
@[simp] theorem State.complete_dlDelay (c : ErrCode) (s : State) : (s.complete c).dlDelay = s.dlDelay := rfl
@[simp] theorem State.complete_dlWidx (c : ErrCode) (s : State) : (s.complete c).dlWidx = s.dlWidx := rfl
@[simp] theorem State.complete_dlRidx (c : ErrCode) (s : State) : (s.complete c).dlRidx = s.dlRidx := rfl
@[simp] theorem State.complete_dl (c : ErrCode) (s : State) : (s.complete c).dl = s.dl := rfl
@[simp] theorem State.complete_mem (c : ErrCode) (s : State) : (s.complete c).mem = s.mem := rfl
@[simp] theorem State.complete_inputs (c : ErrCode) (s : State) : (s.complete c).inputs = s.inputs := rfl
@[simp] theorem State.complete_replies (c : ErrCode) (s : State) : (s.complete c).replies = s.replies := rfl
@[simp] theorem State.complete_powerOns (c : ErrCode) (s : State) :
    (s.complete c).powerOns = s.powerOns := rfl
@[simp] theorem State.complete_nanDraw (c : ErrCode) (s : State) : (s.complete c).nanDraw = s.nanDraw := rfl
@[simp] theorem State.complete_busDraw (c : ErrCode) (s : State) : (s.complete c).busDraw = s.busDraw := rfl

/-! ### raise -/

@[simp] theorem State.raise_pending (c : ErrCode) (s : State) : (s.raise c).pending = none := rfl
@[simp] theorem State.raise_fsm (c : ErrCode) (s : State) : (s.raise c).fsm = s.fsm := rfl
@[simp] theorem State.raise_hz (c : ErrCode) (s : State) : (s.raise c).hz = s.hz := rfl
@[simp] theorem State.raise_err (c : ErrCode) (s : State) : (s.raise c).err = c := rfl
@[simp] theorem State.raise_ctrlClip (c : ErrCode) (s : State) : (s.raise c).ctrlClip = s.ctrlClip := rfl
@[simp] theorem State.raise_ctrlFloat (c : ErrCode) (s : State) : (s.raise c).ctrlFloat = s.ctrlFloat := rfl
@[simp] theorem State.raise_cfgFs (c : ErrCode) (s : State) : (s.raise c).cfgFs = s.cfgFs := rfl
@[simp] theorem State.raise_cfgCh (c : ErrCode) (s : State) : (s.raise c).cfgCh = s.cfgCh := rfl
@[simp] theorem State.raise_cfgEnc (c : ErrCode) (s : State) : (s.raise c).cfgEnc = s.cfgEnc := rfl
@[simp] theorem State.raise_inLen (c : ErrCode) (s : State) : (s.raise c).inLen = s.inLen := rfl
@[simp] theorem State.raise_opd (c : ErrCode) (s : State) : (s.raise c).opd = s.opd := rfl
@[simp] theorem State.raise_actFs (c : ErrCode) (s : State) : (s.raise c).actFs = s.actFs := rfl
@[simp] theorem State.raise_actCh (c : ErrCode) (s : State) : (s.raise c).actCh = s.actCh := rfl
@[simp] theorem State.raise_actEnc (c : ErrCode) (s : State) : (s.raise c).actEnc = s.actEnc := rfl
@[simp] theorem State.raise_actClip (c : ErrCode) (s : State) : (s.raise c).actClip = s.actClip := rfl
@[simp] theorem State.raise_outFrames (c : ErrCode) (s : State) : (s.raise c).outFrames = s.outFrames := rfl
@[simp] theorem State.raise_outBytes (c : ErrCode) (s : State) : (s.raise c).outBytes = s.outBytes := rfl
@[simp] theorem State.raise_coef (c : ErrCode) (s : State) : (s.raise c).coef = s.coef := rfl
@[simp] theorem State.raise_fst (c : ErrCode) (s : State) : (s.raise c).fst = s.fst := rfl
@[simp] theorem State.raise_dlLen (c : ErrCode) (s : State) : (s.raise c).dlLen = s.dlLen := rfl
@[simp] theorem State.raise_dlDelay (c : ErrCode) (s : State) : (s.raise c).dlDelay = s.dlDelay := rfl
@[simp] theorem State.raise_dlWidx (c : ErrCode) (s : State) : (s.raise c).dlWidx = s.dlWidx := rfl
@[simp] theorem State.raise_dlRidx (c : ErrCode) (s : State) : (s.raise c).dlRidx = s.dlRidx := rfl
@[simp] theorem State.raise_dl (c : ErrCode) (s : State) : (s.raise c).dl = s.dl := rfl
@[simp] theorem State.raise_mem (c : ErrCode) (s : State) : (s.raise c).mem = s.mem := rfl
@[simp] theorem State.raise_inputs (c : ErrCode) (s : State) : (s.raise c).inputs = s.inputs := rfl
@[simp] theorem State.raise_replies (c : ErrCode) (s : State) : (s.raise c).replies = s.replies := rfl
@[simp] theorem State.raise_powerOns (c : ErrCode) (s : State) : (s.raise c).powerOns = s.powerOns := rfl
@[simp] theorem State.raise_nanDraw (c : ErrCode) (s : State) : (s.raise c).nanDraw = s.nanDraw := rfl
@[simp] theorem State.raise_busDraw (c : ErrCode) (s : State) : (s.raise c).busDraw = s.busDraw := rfl

/-! ### reject -/

@[simp] theorem State.reject_pending (c : ErrCode) (s : State) : (s.reject c).pending = none := rfl
@[simp] theorem State.reject_fsm (c : ErrCode) (s : State) : (s.reject c).fsm = .unconfigured := rfl
@[simp] theorem State.reject_hz (c : ErrCode) (s : State) : (s.reject c).hz = s.hz := rfl
@[simp] theorem State.reject_err (c : ErrCode) (s : State) : (s.reject c).err = c := rfl
@[simp] theorem State.reject_ctrlClip (c : ErrCode) (s : State) : (s.reject c).ctrlClip = s.ctrlClip := rfl
@[simp] theorem State.reject_ctrlFloat (c : ErrCode) (s : State) : (s.reject c).ctrlFloat = s.ctrlFloat := rfl
@[simp] theorem State.reject_cfgFs (c : ErrCode) (s : State) : (s.reject c).cfgFs = s.cfgFs := rfl
@[simp] theorem State.reject_cfgCh (c : ErrCode) (s : State) : (s.reject c).cfgCh = s.cfgCh := rfl
@[simp] theorem State.reject_cfgEnc (c : ErrCode) (s : State) : (s.reject c).cfgEnc = s.cfgEnc := rfl
@[simp] theorem State.reject_inLen (c : ErrCode) (s : State) : (s.reject c).inLen = s.inLen := rfl
@[simp] theorem State.reject_opd (c : ErrCode) (s : State) : (s.reject c).opd = s.opd := rfl
@[simp] theorem State.reject_actFs (c : ErrCode) (s : State) : (s.reject c).actFs = s.actFs := rfl
@[simp] theorem State.reject_actCh (c : ErrCode) (s : State) : (s.reject c).actCh = s.actCh := rfl
@[simp] theorem State.reject_actEnc (c : ErrCode) (s : State) : (s.reject c).actEnc = s.actEnc := rfl
@[simp] theorem State.reject_actClip (c : ErrCode) (s : State) : (s.reject c).actClip = s.actClip := rfl
@[simp] theorem State.reject_outFrames (c : ErrCode) (s : State) : (s.reject c).outFrames = s.outFrames := rfl
@[simp] theorem State.reject_outBytes (c : ErrCode) (s : State) : (s.reject c).outBytes = s.outBytes := rfl
@[simp] theorem State.reject_coef (c : ErrCode) (s : State) : (s.reject c).coef = s.coef := rfl
@[simp] theorem State.reject_fst (c : ErrCode) (s : State) : (s.reject c).fst = s.fst := rfl
@[simp] theorem State.reject_dlLen (c : ErrCode) (s : State) : (s.reject c).dlLen = s.dlLen := rfl
@[simp] theorem State.reject_dlDelay (c : ErrCode) (s : State) : (s.reject c).dlDelay = s.dlDelay := rfl
@[simp] theorem State.reject_dlWidx (c : ErrCode) (s : State) : (s.reject c).dlWidx = s.dlWidx := rfl
@[simp] theorem State.reject_dlRidx (c : ErrCode) (s : State) : (s.reject c).dlRidx = s.dlRidx := rfl
@[simp] theorem State.reject_dl (c : ErrCode) (s : State) : (s.reject c).dl = s.dl := rfl
@[simp] theorem State.reject_mem (c : ErrCode) (s : State) : (s.reject c).mem = s.mem := rfl
@[simp] theorem State.reject_inputs (c : ErrCode) (s : State) : (s.reject c).inputs = s.inputs := rfl
@[simp] theorem State.reject_replies (c : ErrCode) (s : State) : (s.reject c).replies = s.replies := rfl
@[simp] theorem State.reject_powerOns (c : ErrCode) (s : State) : (s.reject c).powerOns = s.powerOns := rfl
@[simp] theorem State.reject_nanDraw (c : ErrCode) (s : State) : (s.reject c).nanDraw = s.nanDraw := rfl
@[simp] theorem State.reject_busDraw (c : ErrCode) (s : State) : (s.reject c).busDraw = s.busDraw := rfl

/-! ### setCoef -/

@[simp] theorem State.setCoef_pending (i : Fin 6) (c : Coef) (s : State) :
    (s.setCoef i c).pending = s.pending := rfl
@[simp] theorem State.setCoef_fsm (i : Fin 6) (c : Coef) (s : State) : (s.setCoef i c).fsm = s.fsm := rfl
@[simp] theorem State.setCoef_hz (i : Fin 6) (c : Coef) (s : State) : (s.setCoef i c).hz = s.hz := rfl
@[simp] theorem State.setCoef_err (i : Fin 6) (c : Coef) (s : State) : (s.setCoef i c).err = s.err := rfl
@[simp] theorem State.setCoef_ctrlClip (i : Fin 6) (c : Coef) (s : State) :
    (s.setCoef i c).ctrlClip = s.ctrlClip := rfl
@[simp] theorem State.setCoef_ctrlFloat (i : Fin 6) (c : Coef) (s : State) :
    (s.setCoef i c).ctrlFloat = s.ctrlFloat := rfl
@[simp] theorem State.setCoef_cfgFs (i : Fin 6) (c : Coef) (s : State) :
    (s.setCoef i c).cfgFs = s.cfgFs := rfl
@[simp] theorem State.setCoef_cfgCh (i : Fin 6) (c : Coef) (s : State) :
    (s.setCoef i c).cfgCh = s.cfgCh := rfl
@[simp] theorem State.setCoef_cfgEnc (i : Fin 6) (c : Coef) (s : State) :
    (s.setCoef i c).cfgEnc = s.cfgEnc := rfl
@[simp] theorem State.setCoef_inLen (i : Fin 6) (c : Coef) (s : State) :
    (s.setCoef i c).inLen = s.inLen := rfl
@[simp] theorem State.setCoef_opd (i : Fin 6) (c : Coef) (s : State) : (s.setCoef i c).opd = s.opd := rfl
@[simp] theorem State.setCoef_actFs (i : Fin 6) (c : Coef) (s : State) :
    (s.setCoef i c).actFs = s.actFs := rfl
@[simp] theorem State.setCoef_actCh (i : Fin 6) (c : Coef) (s : State) :
    (s.setCoef i c).actCh = s.actCh := rfl
@[simp] theorem State.setCoef_actEnc (i : Fin 6) (c : Coef) (s : State) :
    (s.setCoef i c).actEnc = s.actEnc := rfl
@[simp] theorem State.setCoef_actClip (i : Fin 6) (c : Coef) (s : State) :
    (s.setCoef i c).actClip = s.actClip := rfl
@[simp] theorem State.setCoef_outFrames (i : Fin 6) (c : Coef) (s : State) :
    (s.setCoef i c).outFrames = s.outFrames := rfl
@[simp] theorem State.setCoef_outBytes (i : Fin 6) (c : Coef) (s : State) :
    (s.setCoef i c).outBytes = s.outBytes := rfl
@[simp] theorem State.setCoef_coef (i : Fin 6) (c : Coef) (s : State) :
    (s.setCoef i c).coef = s.coef.set i c := rfl
@[simp] theorem State.setCoef_fst (i : Fin 6) (c : Coef) (s : State) : (s.setCoef i c).fst = s.fst := rfl
@[simp] theorem State.setCoef_dlLen (i : Fin 6) (c : Coef) (s : State) :
    (s.setCoef i c).dlLen = s.dlLen := rfl
@[simp] theorem State.setCoef_dlDelay (i : Fin 6) (c : Coef) (s : State) :
    (s.setCoef i c).dlDelay = s.dlDelay := rfl
@[simp] theorem State.setCoef_dlWidx (i : Fin 6) (c : Coef) (s : State) :
    (s.setCoef i c).dlWidx = s.dlWidx := rfl
@[simp] theorem State.setCoef_dlRidx (i : Fin 6) (c : Coef) (s : State) :
    (s.setCoef i c).dlRidx = s.dlRidx := rfl
@[simp] theorem State.setCoef_dl (i : Fin 6) (c : Coef) (s : State) : (s.setCoef i c).dl = s.dl := rfl
@[simp] theorem State.setCoef_mem (i : Fin 6) (c : Coef) (s : State) : (s.setCoef i c).mem = s.mem := rfl
@[simp] theorem State.setCoef_inputs (i : Fin 6) (c : Coef) (s : State) :
    (s.setCoef i c).inputs = s.inputs := rfl
@[simp] theorem State.setCoef_replies (i : Fin 6) (c : Coef) (s : State) :
    (s.setCoef i c).replies = s.replies := rfl
@[simp] theorem State.setCoef_powerOns (i : Fin 6) (c : Coef) (s : State) :
    (s.setCoef i c).powerOns = s.powerOns := rfl
@[simp] theorem State.setCoef_nanDraw (i : Fin 6) (c : Coef) (s : State) :
    (s.setCoef i c).nanDraw = s.nanDraw := rfl
@[simp] theorem State.setCoef_busDraw (i : Fin 6) (c : Coef) (s : State) :
    (s.setCoef i c).busDraw = s.busDraw := rfl

/-! ### setFst -/

@[simp] theorem State.setFst_pending (i : Fin 6) (h : Hist) (s : State) :
    (s.setFst i h).pending = s.pending := rfl
@[simp] theorem State.setFst_fsm (i : Fin 6) (h : Hist) (s : State) : (s.setFst i h).fsm = s.fsm := rfl
@[simp] theorem State.setFst_hz (i : Fin 6) (h : Hist) (s : State) : (s.setFst i h).hz = s.hz := rfl
@[simp] theorem State.setFst_err (i : Fin 6) (h : Hist) (s : State) : (s.setFst i h).err = s.err := rfl
@[simp] theorem State.setFst_ctrlClip (i : Fin 6) (h : Hist) (s : State) :
    (s.setFst i h).ctrlClip = s.ctrlClip := rfl
@[simp] theorem State.setFst_ctrlFloat (i : Fin 6) (h : Hist) (s : State) :
    (s.setFst i h).ctrlFloat = s.ctrlFloat := rfl
@[simp] theorem State.setFst_cfgFs (i : Fin 6) (h : Hist) (s : State) : (s.setFst i h).cfgFs = s.cfgFs := rfl
@[simp] theorem State.setFst_cfgCh (i : Fin 6) (h : Hist) (s : State) : (s.setFst i h).cfgCh = s.cfgCh := rfl
@[simp] theorem State.setFst_cfgEnc (i : Fin 6) (h : Hist) (s : State) :
    (s.setFst i h).cfgEnc = s.cfgEnc := rfl
@[simp] theorem State.setFst_inLen (i : Fin 6) (h : Hist) (s : State) : (s.setFst i h).inLen = s.inLen := rfl
@[simp] theorem State.setFst_opd (i : Fin 6) (h : Hist) (s : State) : (s.setFst i h).opd = s.opd := rfl
@[simp] theorem State.setFst_actFs (i : Fin 6) (h : Hist) (s : State) : (s.setFst i h).actFs = s.actFs := rfl
@[simp] theorem State.setFst_actCh (i : Fin 6) (h : Hist) (s : State) : (s.setFst i h).actCh = s.actCh := rfl
@[simp] theorem State.setFst_actEnc (i : Fin 6) (h : Hist) (s : State) :
    (s.setFst i h).actEnc = s.actEnc := rfl
@[simp] theorem State.setFst_actClip (i : Fin 6) (h : Hist) (s : State) :
    (s.setFst i h).actClip = s.actClip := rfl
@[simp] theorem State.setFst_outFrames (i : Fin 6) (h : Hist) (s : State) :
    (s.setFst i h).outFrames = s.outFrames := rfl
@[simp] theorem State.setFst_outBytes (i : Fin 6) (h : Hist) (s : State) :
    (s.setFst i h).outBytes = s.outBytes := rfl
@[simp] theorem State.setFst_coef (i : Fin 6) (h : Hist) (s : State) : (s.setFst i h).coef = s.coef := rfl
@[simp] theorem State.setFst_fst (i : Fin 6) (h : Hist) (s : State) :
    (s.setFst i h).fst = s.fst.set i h := rfl
@[simp] theorem State.setFst_dlLen (i : Fin 6) (h : Hist) (s : State) : (s.setFst i h).dlLen = s.dlLen := rfl
@[simp] theorem State.setFst_dlDelay (i : Fin 6) (h : Hist) (s : State) :
    (s.setFst i h).dlDelay = s.dlDelay := rfl
@[simp] theorem State.setFst_dlWidx (i : Fin 6) (h : Hist) (s : State) :
    (s.setFst i h).dlWidx = s.dlWidx := rfl
@[simp] theorem State.setFst_dlRidx (i : Fin 6) (h : Hist) (s : State) :
    (s.setFst i h).dlRidx = s.dlRidx := rfl
@[simp] theorem State.setFst_dl (i : Fin 6) (h : Hist) (s : State) : (s.setFst i h).dl = s.dl := rfl
@[simp] theorem State.setFst_mem (i : Fin 6) (h : Hist) (s : State) : (s.setFst i h).mem = s.mem := rfl
@[simp] theorem State.setFst_inputs (i : Fin 6) (h : Hist) (s : State) :
    (s.setFst i h).inputs = s.inputs := rfl
@[simp] theorem State.setFst_replies (i : Fin 6) (h : Hist) (s : State) :
    (s.setFst i h).replies = s.replies := rfl
@[simp] theorem State.setFst_powerOns (i : Fin 6) (h : Hist) (s : State) :
    (s.setFst i h).powerOns = s.powerOns := rfl
@[simp] theorem State.setFst_nanDraw (i : Fin 6) (h : Hist) (s : State) :
    (s.setFst i h).nanDraw = s.nanDraw := rfl
@[simp] theorem State.setFst_busDraw (i : Fin 6) (h : Hist) (s : State) :
    (s.setFst i h).busDraw = s.busDraw := rfl

/-! ### clearFst -/

@[simp] theorem clearFst_pending (s : State) : (clearFst s).pending = s.pending := rfl
@[simp] theorem clearFst_fsm (s : State) : (clearFst s).fsm = s.fsm := rfl
@[simp] theorem clearFst_hz (s : State) : (clearFst s).hz = s.hz := rfl
@[simp] theorem clearFst_err (s : State) : (clearFst s).err = s.err := rfl
@[simp] theorem clearFst_ctrlClip (s : State) : (clearFst s).ctrlClip = s.ctrlClip := rfl
@[simp] theorem clearFst_ctrlFloat (s : State) : (clearFst s).ctrlFloat = s.ctrlFloat := rfl
@[simp] theorem clearFst_cfgFs (s : State) : (clearFst s).cfgFs = s.cfgFs := rfl
@[simp] theorem clearFst_cfgCh (s : State) : (clearFst s).cfgCh = s.cfgCh := rfl
@[simp] theorem clearFst_cfgEnc (s : State) : (clearFst s).cfgEnc = s.cfgEnc := rfl
@[simp] theorem clearFst_inLen (s : State) : (clearFst s).inLen = s.inLen := rfl
@[simp] theorem clearFst_opd (s : State) : (clearFst s).opd = s.opd := rfl
@[simp] theorem clearFst_actFs (s : State) : (clearFst s).actFs = s.actFs := rfl
@[simp] theorem clearFst_actCh (s : State) : (clearFst s).actCh = s.actCh := rfl
@[simp] theorem clearFst_actEnc (s : State) : (clearFst s).actEnc = s.actEnc := rfl
@[simp] theorem clearFst_actClip (s : State) : (clearFst s).actClip = s.actClip := rfl
@[simp] theorem clearFst_outFrames (s : State) : (clearFst s).outFrames = s.outFrames := rfl
@[simp] theorem clearFst_outBytes (s : State) : (clearFst s).outBytes = s.outBytes := rfl
@[simp] theorem clearFst_coef (s : State) : (clearFst s).coef = s.coef := rfl
@[simp] theorem clearFst_fst (s : State) : (clearFst s).fst = Vector.replicate 6 Hist.zero := rfl
@[simp] theorem clearFst_dlLen (s : State) : (clearFst s).dlLen = s.dlLen := rfl
@[simp] theorem clearFst_dlDelay (s : State) : (clearFst s).dlDelay = s.dlDelay := rfl
@[simp] theorem clearFst_dlWidx (s : State) : (clearFst s).dlWidx = s.dlWidx := rfl
@[simp] theorem clearFst_dlRidx (s : State) : (clearFst s).dlRidx = s.dlRidx := rfl
@[simp] theorem clearFst_dl (s : State) : (clearFst s).dl = s.dl := rfl
@[simp] theorem clearFst_mem (s : State) : (clearFst s).mem = s.mem := rfl
@[simp] theorem clearFst_inputs (s : State) : (clearFst s).inputs = s.inputs := rfl
@[simp] theorem clearFst_replies (s : State) : (clearFst s).replies = s.replies := rfl
@[simp] theorem clearFst_powerOns (s : State) : (clearFst s).powerOns = s.powerOns := rfl
@[simp] theorem clearFst_nanDraw (s : State) : (clearFst s).nanDraw = s.nanDraw := rfl
@[simp] theorem clearFst_busDraw (s : State) : (clearFst s).busDraw = s.busDraw := rfl

/-! ### tick -/

@[simp] theorem State.tick_pending (n : Nat) (s : State) : (s.tick n).pending = s.pending := rfl
@[simp] theorem State.tick_fsm (n : Nat) (s : State) : (s.tick n).fsm = s.fsm := rfl
@[simp] theorem State.tick_hz (n : Nat) (s : State) : (s.tick n).hz = s.hz := rfl
@[simp] theorem State.tick_err (n : Nat) (s : State) : (s.tick n).err = s.err := rfl
@[simp] theorem State.tick_ctrlClip (n : Nat) (s : State) : (s.tick n).ctrlClip = s.ctrlClip := rfl
@[simp] theorem State.tick_ctrlFloat (n : Nat) (s : State) : (s.tick n).ctrlFloat = s.ctrlFloat := rfl
@[simp] theorem State.tick_cfgFs (n : Nat) (s : State) : (s.tick n).cfgFs = s.cfgFs := rfl
@[simp] theorem State.tick_cfgCh (n : Nat) (s : State) : (s.tick n).cfgCh = s.cfgCh := rfl
@[simp] theorem State.tick_cfgEnc (n : Nat) (s : State) : (s.tick n).cfgEnc = s.cfgEnc := rfl
@[simp] theorem State.tick_inLen (n : Nat) (s : State) : (s.tick n).inLen = s.inLen := rfl
@[simp] theorem State.tick_opd (n : Nat) (s : State) : (s.tick n).opd = s.opd := rfl
@[simp] theorem State.tick_actFs (n : Nat) (s : State) : (s.tick n).actFs = s.actFs := rfl
@[simp] theorem State.tick_actCh (n : Nat) (s : State) : (s.tick n).actCh = s.actCh := rfl
@[simp] theorem State.tick_actEnc (n : Nat) (s : State) : (s.tick n).actEnc = s.actEnc := rfl
@[simp] theorem State.tick_actClip (n : Nat) (s : State) : (s.tick n).actClip = s.actClip := rfl
@[simp] theorem State.tick_outFrames (n : Nat) (s : State) : (s.tick n).outFrames = s.outFrames := rfl
@[simp] theorem State.tick_outBytes (n : Nat) (s : State) : (s.tick n).outBytes = s.outBytes := rfl
@[simp] theorem State.tick_coef (n : Nat) (s : State) : (s.tick n).coef = s.coef := rfl
@[simp] theorem State.tick_fst (n : Nat) (s : State) : (s.tick n).fst = s.fst := rfl
@[simp] theorem State.tick_dlLen (n : Nat) (s : State) : (s.tick n).dlLen = s.dlLen := rfl
@[simp] theorem State.tick_dlDelay (n : Nat) (s : State) : (s.tick n).dlDelay = s.dlDelay := rfl
@[simp] theorem State.tick_dlWidx (n : Nat) (s : State) : (s.tick n).dlWidx = s.dlWidx := rfl
@[simp] theorem State.tick_dlRidx (n : Nat) (s : State) : (s.tick n).dlRidx = s.dlRidx := rfl
@[simp] theorem State.tick_dl (n : Nat) (s : State) : (s.tick n).dl = s.dl := rfl
@[simp] theorem State.tick_mem (n : Nat) (s : State) : (s.tick n).mem = s.mem := rfl
@[simp] theorem State.tick_inputs (n : Nat) (s : State) : (s.tick n).inputs = s.inputs := rfl
@[simp] theorem State.tick_replies (n : Nat) (s : State) : (s.tick n).replies = s.replies := rfl
@[simp] theorem State.tick_powerOns (n : Nat) (s : State) : (s.tick n).powerOns = s.powerOns := rfl
@[simp] theorem State.tick_nanDraw (n : Nat) (s : State) : (s.tick n).nanDraw = s.nanDraw + n := rfl
@[simp] theorem State.tick_busDraw (n : Nat) (s : State) : (s.tick n).busDraw = s.busDraw := rfl

/-! ### obufWrite -/

@[simp] theorem obufWrite_pending (o : Nat) (v : F32) (s : State) :
    (obufWrite o v s).pending = s.pending := rfl
@[simp] theorem obufWrite_fsm (o : Nat) (v : F32) (s : State) : (obufWrite o v s).fsm = s.fsm := rfl
@[simp] theorem obufWrite_hz (o : Nat) (v : F32) (s : State) : (obufWrite o v s).hz = s.hz := rfl
@[simp] theorem obufWrite_err (o : Nat) (v : F32) (s : State) : (obufWrite o v s).err = s.err := rfl
@[simp] theorem obufWrite_ctrlClip (o : Nat) (v : F32) (s : State) :
    (obufWrite o v s).ctrlClip = s.ctrlClip := rfl
@[simp] theorem obufWrite_ctrlFloat (o : Nat) (v : F32) (s : State) :
    (obufWrite o v s).ctrlFloat = s.ctrlFloat := rfl
@[simp] theorem obufWrite_cfgFs (o : Nat) (v : F32) (s : State) : (obufWrite o v s).cfgFs = s.cfgFs := rfl
@[simp] theorem obufWrite_cfgCh (o : Nat) (v : F32) (s : State) : (obufWrite o v s).cfgCh = s.cfgCh := rfl
@[simp] theorem obufWrite_cfgEnc (o : Nat) (v : F32) (s : State) : (obufWrite o v s).cfgEnc = s.cfgEnc := rfl
@[simp] theorem obufWrite_inLen (o : Nat) (v : F32) (s : State) : (obufWrite o v s).inLen = s.inLen := rfl
@[simp] theorem obufWrite_opd (o : Nat) (v : F32) (s : State) : (obufWrite o v s).opd = s.opd := rfl
@[simp] theorem obufWrite_actFs (o : Nat) (v : F32) (s : State) : (obufWrite o v s).actFs = s.actFs := rfl
@[simp] theorem obufWrite_actCh (o : Nat) (v : F32) (s : State) : (obufWrite o v s).actCh = s.actCh := rfl
@[simp] theorem obufWrite_actEnc (o : Nat) (v : F32) (s : State) : (obufWrite o v s).actEnc = s.actEnc := rfl
@[simp] theorem obufWrite_actClip (o : Nat) (v : F32) (s : State) :
    (obufWrite o v s).actClip = s.actClip := rfl
@[simp] theorem obufWrite_outFrames (o : Nat) (v : F32) (s : State) :
    (obufWrite o v s).outFrames = s.outFrames := rfl
@[simp] theorem obufWrite_outBytes (o : Nat) (v : F32) (s : State) :
    (obufWrite o v s).outBytes = s.outBytes := rfl
@[simp] theorem obufWrite_coef (o : Nat) (v : F32) (s : State) : (obufWrite o v s).coef = s.coef := rfl
@[simp] theorem obufWrite_fst (o : Nat) (v : F32) (s : State) : (obufWrite o v s).fst = s.fst := rfl
@[simp] theorem obufWrite_dlLen (o : Nat) (v : F32) (s : State) : (obufWrite o v s).dlLen = s.dlLen := rfl
@[simp] theorem obufWrite_dlDelay (o : Nat) (v : F32) (s : State) :
    (obufWrite o v s).dlDelay = s.dlDelay := rfl
@[simp] theorem obufWrite_dlWidx (o : Nat) (v : F32) (s : State) : (obufWrite o v s).dlWidx = s.dlWidx := rfl
@[simp] theorem obufWrite_dlRidx (o : Nat) (v : F32) (s : State) : (obufWrite o v s).dlRidx = s.dlRidx := rfl
@[simp] theorem obufWrite_dl (o : Nat) (v : F32) (s : State) : (obufWrite o v s).dl = s.dl := rfl
@[simp] theorem obufWrite_mem (o : Nat) (v : F32) (s : State) :
    (obufWrite o v s).mem = s.mem.writeLE (obufBase + o) v 4 := rfl
@[simp] theorem obufWrite_inputs (o : Nat) (v : F32) (s : State) : (obufWrite o v s).inputs = s.inputs := rfl
@[simp] theorem obufWrite_replies (o : Nat) (v : F32) (s : State) :
    (obufWrite o v s).replies = s.replies := rfl
@[simp] theorem obufWrite_powerOns (o : Nat) (v : F32) (s : State) :
    (obufWrite o v s).powerOns = s.powerOns := rfl
@[simp] theorem obufWrite_nanDraw (o : Nat) (v : F32) (s : State) :
    (obufWrite o v s).nanDraw = s.nanDraw := rfl
@[simp] theorem obufWrite_busDraw (o : Nat) (v : F32) (s : State) :
    (obufWrite o v s).busDraw = s.busDraw := rfl

/-! ### setOperand -/

@[simp] theorem State.setOperand_pending (n : Fin 5) (v : F64) (s : State) :
    (s.setOperand n v).pending = s.pending := rfl
@[simp] theorem State.setOperand_fsm (n : Fin 5) (v : F64) (s : State) : (s.setOperand n v).fsm = s.fsm := rfl
@[simp] theorem State.setOperand_hz (n : Fin 5) (v : F64) (s : State) : (s.setOperand n v).hz = s.hz := rfl
@[simp] theorem State.setOperand_err (n : Fin 5) (v : F64) (s : State) : (s.setOperand n v).err = s.err := rfl
@[simp] theorem State.setOperand_ctrlClip (n : Fin 5) (v : F64) (s : State) :
    (s.setOperand n v).ctrlClip = s.ctrlClip := rfl
@[simp] theorem State.setOperand_ctrlFloat (n : Fin 5) (v : F64) (s : State) :
    (s.setOperand n v).ctrlFloat = s.ctrlFloat := rfl
@[simp] theorem State.setOperand_cfgFs (n : Fin 5) (v : F64) (s : State) :
    (s.setOperand n v).cfgFs = s.cfgFs := rfl
@[simp] theorem State.setOperand_cfgCh (n : Fin 5) (v : F64) (s : State) :
    (s.setOperand n v).cfgCh = s.cfgCh := rfl
@[simp] theorem State.setOperand_cfgEnc (n : Fin 5) (v : F64) (s : State) :
    (s.setOperand n v).cfgEnc = s.cfgEnc := rfl
@[simp] theorem State.setOperand_inLen (n : Fin 5) (v : F64) (s : State) :
    (s.setOperand n v).inLen = s.inLen := rfl
@[simp] theorem State.setOperand_opd (n : Fin 5) (v : F64) (s : State) :
    (s.setOperand n v).opd = s.opd.set n v := rfl
@[simp] theorem State.setOperand_actFs (n : Fin 5) (v : F64) (s : State) :
    (s.setOperand n v).actFs = s.actFs := rfl
@[simp] theorem State.setOperand_actCh (n : Fin 5) (v : F64) (s : State) :
    (s.setOperand n v).actCh = s.actCh := rfl
@[simp] theorem State.setOperand_actEnc (n : Fin 5) (v : F64) (s : State) :
    (s.setOperand n v).actEnc = s.actEnc := rfl
@[simp] theorem State.setOperand_actClip (n : Fin 5) (v : F64) (s : State) :
    (s.setOperand n v).actClip = s.actClip := rfl
@[simp] theorem State.setOperand_outFrames (n : Fin 5) (v : F64) (s : State) :
    (s.setOperand n v).outFrames = s.outFrames := rfl
@[simp] theorem State.setOperand_outBytes (n : Fin 5) (v : F64) (s : State) :
    (s.setOperand n v).outBytes = s.outBytes := rfl
@[simp] theorem State.setOperand_coef (n : Fin 5) (v : F64) (s : State) :
    (s.setOperand n v).coef = s.coef := rfl
@[simp] theorem State.setOperand_fst (n : Fin 5) (v : F64) (s : State) : (s.setOperand n v).fst = s.fst := rfl
@[simp] theorem State.setOperand_dlLen (n : Fin 5) (v : F64) (s : State) :
    (s.setOperand n v).dlLen = s.dlLen := rfl
@[simp] theorem State.setOperand_dlDelay (n : Fin 5) (v : F64) (s : State) :
    (s.setOperand n v).dlDelay = s.dlDelay := rfl
@[simp] theorem State.setOperand_dlWidx (n : Fin 5) (v : F64) (s : State) :
    (s.setOperand n v).dlWidx = s.dlWidx := rfl
@[simp] theorem State.setOperand_dlRidx (n : Fin 5) (v : F64) (s : State) :
    (s.setOperand n v).dlRidx = s.dlRidx := rfl
@[simp] theorem State.setOperand_dl (n : Fin 5) (v : F64) (s : State) : (s.setOperand n v).dl = s.dl := rfl
@[simp] theorem State.setOperand_mem (n : Fin 5) (v : F64) (s : State) : (s.setOperand n v).mem = s.mem := rfl
@[simp] theorem State.setOperand_inputs (n : Fin 5) (v : F64) (s : State) :
    (s.setOperand n v).inputs = s.inputs := rfl
@[simp] theorem State.setOperand_replies (n : Fin 5) (v : F64) (s : State) :
    (s.setOperand n v).replies = s.replies := rfl
@[simp] theorem State.setOperand_powerOns (n : Fin 5) (v : F64) (s : State) :
    (s.setOperand n v).powerOns = s.powerOns := rfl
@[simp] theorem State.setOperand_nanDraw (n : Fin 5) (v : F64) (s : State) :
    (s.setOperand n v).nanDraw = s.nanDraw := rfl
@[simp] theorem State.setOperand_busDraw (n : Fin 5) (v : F64) (s : State) :
    (s.setOperand n v).busDraw = s.busDraw := rfl

/-! ### dlInit -/

@[simp] theorem dlInit_pending (s : State) : (dlInit s).pending = s.pending := rfl
@[simp] theorem dlInit_fsm (s : State) : (dlInit s).fsm = s.fsm := rfl
@[simp] theorem dlInit_hz (s : State) : (dlInit s).hz = s.hz := rfl
@[simp] theorem dlInit_err (s : State) : (dlInit s).err = s.err := rfl
@[simp] theorem dlInit_ctrlClip (s : State) : (dlInit s).ctrlClip = s.ctrlClip := rfl
@[simp] theorem dlInit_ctrlFloat (s : State) : (dlInit s).ctrlFloat = s.ctrlFloat := rfl
@[simp] theorem dlInit_cfgFs (s : State) : (dlInit s).cfgFs = s.cfgFs := rfl
@[simp] theorem dlInit_cfgCh (s : State) : (dlInit s).cfgCh = s.cfgCh := rfl
@[simp] theorem dlInit_cfgEnc (s : State) : (dlInit s).cfgEnc = s.cfgEnc := rfl
@[simp] theorem dlInit_inLen (s : State) : (dlInit s).inLen = s.inLen := rfl
@[simp] theorem dlInit_opd (s : State) : (dlInit s).opd = s.opd := rfl
@[simp] theorem dlInit_actFs (s : State) : (dlInit s).actFs = s.actFs := rfl
@[simp] theorem dlInit_actCh (s : State) : (dlInit s).actCh = s.actCh := rfl
@[simp] theorem dlInit_actEnc (s : State) : (dlInit s).actEnc = s.actEnc := rfl
@[simp] theorem dlInit_actClip (s : State) : (dlInit s).actClip = s.actClip := rfl
@[simp] theorem dlInit_outFrames (s : State) : (dlInit s).outFrames = s.outFrames := rfl
@[simp] theorem dlInit_outBytes (s : State) : (dlInit s).outBytes = s.outBytes := rfl
@[simp] theorem dlInit_coef (s : State) : (dlInit s).coef = s.coef := rfl
@[simp] theorem dlInit_fst (s : State) : (dlInit s).fst = s.fst := rfl
@[simp] theorem dlInit_dlLen (s : State) : (dlInit s).dlLen = s.dlLen := rfl
@[simp] theorem dlInit_dlDelay (s : State) : (dlInit s).dlDelay = s.dlDelay := rfl
@[simp] theorem dlInit_dlWidx (s : State) : (dlInit s).dlWidx = 0 := rfl
@[simp] theorem dlInit_dlRidx (s : State) :
    (dlInit s).dlRidx = BitVec.ofNat 32 (initialReadCursor s.dlLen.toNat s.dlDelay.toNat) := rfl
@[simp] theorem dlInit_dl (s : State) : (dlInit s).dl = List.replicate s.dlLen.toNat F64.zero := rfl
@[simp] theorem dlInit_mem (s : State) : (dlInit s).mem = s.mem := rfl
@[simp] theorem dlInit_inputs (s : State) : (dlInit s).inputs = s.inputs := rfl
@[simp] theorem dlInit_replies (s : State) : (dlInit s).replies = s.replies := rfl
@[simp] theorem dlInit_powerOns (s : State) : (dlInit s).powerOns = s.powerOns := rfl
@[simp] theorem dlInit_nanDraw (s : State) : (dlInit s).nanDraw = s.nanDraw := rfl
@[simp] theorem dlInit_busDraw (s : State) : (dlInit s).busDraw = s.busDraw := rfl

/-! ### dlWrite -/

@[simp] theorem dlWrite_pending (v : F64) (s : State) : (dlWrite v s).pending = s.pending := rfl
@[simp] theorem dlWrite_fsm (v : F64) (s : State) : (dlWrite v s).fsm = s.fsm := rfl
@[simp] theorem dlWrite_hz (v : F64) (s : State) : (dlWrite v s).hz = s.hz := rfl
@[simp] theorem dlWrite_err (v : F64) (s : State) : (dlWrite v s).err = s.err := rfl
@[simp] theorem dlWrite_ctrlClip (v : F64) (s : State) : (dlWrite v s).ctrlClip = s.ctrlClip := rfl
@[simp] theorem dlWrite_ctrlFloat (v : F64) (s : State) : (dlWrite v s).ctrlFloat = s.ctrlFloat := rfl
@[simp] theorem dlWrite_cfgFs (v : F64) (s : State) : (dlWrite v s).cfgFs = s.cfgFs := rfl
@[simp] theorem dlWrite_cfgCh (v : F64) (s : State) : (dlWrite v s).cfgCh = s.cfgCh := rfl
@[simp] theorem dlWrite_cfgEnc (v : F64) (s : State) : (dlWrite v s).cfgEnc = s.cfgEnc := rfl
@[simp] theorem dlWrite_inLen (v : F64) (s : State) : (dlWrite v s).inLen = s.inLen := rfl
@[simp] theorem dlWrite_opd (v : F64) (s : State) : (dlWrite v s).opd = s.opd := rfl
@[simp] theorem dlWrite_actFs (v : F64) (s : State) : (dlWrite v s).actFs = s.actFs := rfl
@[simp] theorem dlWrite_actCh (v : F64) (s : State) : (dlWrite v s).actCh = s.actCh := rfl
@[simp] theorem dlWrite_actEnc (v : F64) (s : State) : (dlWrite v s).actEnc = s.actEnc := rfl
@[simp] theorem dlWrite_actClip (v : F64) (s : State) : (dlWrite v s).actClip = s.actClip := rfl
@[simp] theorem dlWrite_outFrames (v : F64) (s : State) : (dlWrite v s).outFrames = s.outFrames := rfl
@[simp] theorem dlWrite_outBytes (v : F64) (s : State) : (dlWrite v s).outBytes = s.outBytes := rfl
@[simp] theorem dlWrite_coef (v : F64) (s : State) : (dlWrite v s).coef = s.coef := rfl
@[simp] theorem dlWrite_fst (v : F64) (s : State) : (dlWrite v s).fst = s.fst := rfl
@[simp] theorem dlWrite_dlLen (v : F64) (s : State) : (dlWrite v s).dlLen = s.dlLen := rfl
@[simp] theorem dlWrite_dlDelay (v : F64) (s : State) : (dlWrite v s).dlDelay = s.dlDelay := rfl
@[simp] theorem dlWrite_dlWidx (v : F64) (s : State) : (dlWrite v s).dlWidx = advance s.dlWidx s.dlLen := rfl
@[simp] theorem dlWrite_dlRidx (v : F64) (s : State) : (dlWrite v s).dlRidx = s.dlRidx := rfl
@[simp] theorem dlWrite_dl (v : F64) (s : State) : (dlWrite v s).dl = s.dl.set s.dlWidx.toNat v := rfl
@[simp] theorem dlWrite_mem (v : F64) (s : State) : (dlWrite v s).mem = s.mem := rfl
@[simp] theorem dlWrite_inputs (v : F64) (s : State) : (dlWrite v s).inputs = s.inputs := rfl
@[simp] theorem dlWrite_replies (v : F64) (s : State) : (dlWrite v s).replies = s.replies := rfl
@[simp] theorem dlWrite_powerOns (v : F64) (s : State) : (dlWrite v s).powerOns = s.powerOns := rfl
@[simp] theorem dlWrite_nanDraw (v : F64) (s : State) : (dlWrite v s).nanDraw = s.nanDraw := rfl
@[simp] theorem dlWrite_busDraw (v : F64) (s : State) : (dlWrite v s).busDraw = s.busDraw := rfl

/-! ### dlRead -/

@[simp] theorem dlRead_pending (s : State) : (dlRead s).2.pending = s.pending := rfl
@[simp] theorem dlRead_fsm (s : State) : (dlRead s).2.fsm = s.fsm := rfl
@[simp] theorem dlRead_hz (s : State) : (dlRead s).2.hz = s.hz := rfl
@[simp] theorem dlRead_err (s : State) : (dlRead s).2.err = s.err := rfl
@[simp] theorem dlRead_ctrlClip (s : State) : (dlRead s).2.ctrlClip = s.ctrlClip := rfl
@[simp] theorem dlRead_ctrlFloat (s : State) : (dlRead s).2.ctrlFloat = s.ctrlFloat := rfl
@[simp] theorem dlRead_cfgFs (s : State) : (dlRead s).2.cfgFs = s.cfgFs := rfl
@[simp] theorem dlRead_cfgCh (s : State) : (dlRead s).2.cfgCh = s.cfgCh := rfl
@[simp] theorem dlRead_cfgEnc (s : State) : (dlRead s).2.cfgEnc = s.cfgEnc := rfl
@[simp] theorem dlRead_inLen (s : State) : (dlRead s).2.inLen = s.inLen := rfl
@[simp] theorem dlRead_opd (s : State) : (dlRead s).2.opd = s.opd := rfl
@[simp] theorem dlRead_actFs (s : State) : (dlRead s).2.actFs = s.actFs := rfl
@[simp] theorem dlRead_actCh (s : State) : (dlRead s).2.actCh = s.actCh := rfl
@[simp] theorem dlRead_actEnc (s : State) : (dlRead s).2.actEnc = s.actEnc := rfl
@[simp] theorem dlRead_actClip (s : State) : (dlRead s).2.actClip = s.actClip := rfl
@[simp] theorem dlRead_outFrames (s : State) : (dlRead s).2.outFrames = s.outFrames := rfl
@[simp] theorem dlRead_outBytes (s : State) : (dlRead s).2.outBytes = s.outBytes := rfl
@[simp] theorem dlRead_coef (s : State) : (dlRead s).2.coef = s.coef := rfl
@[simp] theorem dlRead_fst (s : State) : (dlRead s).2.fst = s.fst := rfl
@[simp] theorem dlRead_dlLen (s : State) : (dlRead s).2.dlLen = s.dlLen := rfl
@[simp] theorem dlRead_dlDelay (s : State) : (dlRead s).2.dlDelay = s.dlDelay := rfl
@[simp] theorem dlRead_dlWidx (s : State) : (dlRead s).2.dlWidx = s.dlWidx := rfl
@[simp] theorem dlRead_dlRidx (s : State) : (dlRead s).2.dlRidx = advance s.dlRidx s.dlLen := rfl
@[simp] theorem dlRead_dl (s : State) : (dlRead s).2.dl = s.dl := rfl
@[simp] theorem dlRead_mem (s : State) : (dlRead s).2.mem = s.mem := rfl
@[simp] theorem dlRead_inputs (s : State) : (dlRead s).2.inputs = s.inputs := rfl
@[simp] theorem dlRead_replies (s : State) : (dlRead s).2.replies = s.replies := rfl
@[simp] theorem dlRead_powerOns (s : State) : (dlRead s).2.powerOns = s.powerOns := rfl
@[simp] theorem dlRead_nanDraw (s : State) : (dlRead s).2.nanDraw = s.nanDraw := rfl
@[simp] theorem dlRead_busDraw (s : State) : (dlRead s).2.busDraw = s.busDraw := rfl

/-! ### reply -/

@[simp] theorem State.reply_pending (v : Word) (s : State) : (s.reply v).pending = s.pending := rfl
@[simp] theorem State.reply_fsm (v : Word) (s : State) : (s.reply v).fsm = s.fsm := rfl
@[simp] theorem State.reply_hz (v : Word) (s : State) : (s.reply v).hz = s.hz := rfl
@[simp] theorem State.reply_err (v : Word) (s : State) : (s.reply v).err = s.err := rfl
@[simp] theorem State.reply_ctrlClip (v : Word) (s : State) : (s.reply v).ctrlClip = s.ctrlClip := rfl
@[simp] theorem State.reply_ctrlFloat (v : Word) (s : State) : (s.reply v).ctrlFloat = s.ctrlFloat := rfl
@[simp] theorem State.reply_cfgFs (v : Word) (s : State) : (s.reply v).cfgFs = s.cfgFs := rfl
@[simp] theorem State.reply_cfgCh (v : Word) (s : State) : (s.reply v).cfgCh = s.cfgCh := rfl
@[simp] theorem State.reply_cfgEnc (v : Word) (s : State) : (s.reply v).cfgEnc = s.cfgEnc := rfl
@[simp] theorem State.reply_inLen (v : Word) (s : State) : (s.reply v).inLen = s.inLen := rfl
@[simp] theorem State.reply_opd (v : Word) (s : State) : (s.reply v).opd = s.opd := rfl
@[simp] theorem State.reply_actFs (v : Word) (s : State) : (s.reply v).actFs = s.actFs := rfl
@[simp] theorem State.reply_actCh (v : Word) (s : State) : (s.reply v).actCh = s.actCh := rfl
@[simp] theorem State.reply_actEnc (v : Word) (s : State) : (s.reply v).actEnc = s.actEnc := rfl
@[simp] theorem State.reply_actClip (v : Word) (s : State) : (s.reply v).actClip = s.actClip := rfl
@[simp] theorem State.reply_outFrames (v : Word) (s : State) : (s.reply v).outFrames = s.outFrames := rfl
@[simp] theorem State.reply_outBytes (v : Word) (s : State) : (s.reply v).outBytes = s.outBytes := rfl
@[simp] theorem State.reply_coef (v : Word) (s : State) : (s.reply v).coef = s.coef := rfl
@[simp] theorem State.reply_fst (v : Word) (s : State) : (s.reply v).fst = s.fst := rfl
@[simp] theorem State.reply_dlLen (v : Word) (s : State) : (s.reply v).dlLen = s.dlLen := rfl
@[simp] theorem State.reply_dlDelay (v : Word) (s : State) : (s.reply v).dlDelay = s.dlDelay := rfl
@[simp] theorem State.reply_dlWidx (v : Word) (s : State) : (s.reply v).dlWidx = s.dlWidx := rfl
@[simp] theorem State.reply_dlRidx (v : Word) (s : State) : (s.reply v).dlRidx = s.dlRidx := rfl
@[simp] theorem State.reply_dl (v : Word) (s : State) : (s.reply v).dl = s.dl := rfl
@[simp] theorem State.reply_mem (v : Word) (s : State) : (s.reply v).mem = s.mem := rfl
@[simp] theorem State.reply_inputs (v : Word) (s : State) : (s.reply v).inputs = s.inputs := rfl
@[simp] theorem State.reply_replies (v : Word) (s : State) : (s.reply v).replies = s.replies ++ [v] := rfl
@[simp] theorem State.reply_powerOns (v : Word) (s : State) : (s.reply v).powerOns = s.powerOns := rfl
@[simp] theorem State.reply_nanDraw (v : Word) (s : State) : (s.reply v).nanDraw = s.nanDraw := rfl
@[simp] theorem State.reply_busDraw (v : Word) (s : State) : (s.reply v).busDraw = s.busDraw := rfl

end Sys2Proof.Machine
end

