-- ==== Sys2Proof/Laws/Pipeline.lean ====
section
/-! SUPPORT. What the sub-unit operations and a frame can do to the state, each said once. -/

namespace Sys2Proof.Machine

/-! ### Banks -/

@[simp] theorem coefAt_setCoef (i j : Fin 6) (c : Coef) (s : State) :
    (s.setCoef i c).coefAt j = if i = j then c else s.coefAt j := by
  simp only [State.coefAt, State.setCoef, Vector.get_eq_getElem, Vector.getElem_set, Fin.ext_iff]

@[simp] theorem fstAt_setFst (i j : Fin 6) (h : Hist) (s : State) :
    (s.setFst i h).fstAt j = if i = j then h else s.fstAt j := by
  simp only [State.fstAt, State.setFst, Vector.get_eq_getElem, Vector.getElem_set, Fin.ext_iff]

@[simp] theorem coefAt_setFst (i j : Fin 6) (h : Hist) (s : State) :
    (s.setFst i h).coefAt j = s.coefAt j := rfl

@[simp] theorem fstAt_setCoef (i j : Fin 6) (c : Coef) (s : State) :
    (s.setCoef i c).fstAt j = s.fstAt j := rfl

@[simp] theorem coefAt_tick (n : Nat) (j : Fin 6) (s : State) : (s.tick n).coefAt j = s.coefAt j := rfl

@[simp] theorem fstAt_tick (n : Nat) (j : Fin 6) (s : State) : (s.tick n).fstAt j = s.fstAt j := rfl

@[simp] theorem fstAt_clearFst (j : Fin 6) (s : State) : (clearFst s).fstAt j = Hist.zero := by
  simp [State.fstAt, clearFst, Vector.get_eq_getElem]

@[simp] theorem operand_setOperand (i j : Fin 5) (v : F64) (s : State) :
    (s.setOperand i v).operand j = if i = j then v else s.operand j := by
  simp only [State.operand, State.setOperand, Vector.get_eq_getElem, Vector.getElem_set, Fin.ext_iff]

/-! ### What the parts of a frame change -/

/-- `t` is `s` but for the state that processing a frame may write (R250): the filter histories, the delay
line and its cursors, the memory and the draw counter. -/
def FrameOf (s t : State) : Prop :=
  t = { s with fst := t.fst, dl := t.dl, dlWidx := t.dlWidx, dlRidx := t.dlRidx, mem := t.mem,
               nanDraw := t.nanDraw }

theorem FrameOf.refl (s : State) : FrameOf s s := rfl

theorem FrameOf.trans {s t u : State} (h : FrameOf s t) (g : FrameOf t u) : FrameOf s u := by
  unfold FrameOf at *
  rw [g, h]

theorem frameOf_tick (n : Nat) (s : State) : FrameOf s (s.tick n) := rfl

/-- `t` is `s` but for the filter histories and `n` more draws. -/
def FstOnly (n : Nat) (s t : State) : Prop := t = { s with fst := t.fst, nanDraw := s.nanDraw + n }

theorem FstOnly.trans {m n : Nat} {s t u : State} (h : FstOnly m s t) (g : FstOnly n t u) :
    FstOnly (m + n) s u := by
  unfold FstOnly at *
  rw [g, h, Nat.add_assoc]

theorem FstOnly.frameOf {n : Nat} {s t : State} (h : FstOnly n s t) : FrameOf s t := by
  unfold FstOnly FrameOf at *
  rw [h]

/-- A filter stage writes its own history and nothing else (R147). -/
theorem fstOnly_biquadStep (E : Env) (i : Fin 6) (x : F64) (s : State) :
    FstOnly 9 s (biquadStep E i x s).2 := rfl

theorem biquadStep_fstAt (E : Env) (i j : Fin 6) (x : F64) (s : State) :
    (biquadStep E i x s).2.fstAt j
      = if i = j then (s.fstAt i).shift x (biquadStep E i x s).1 else s.fstAt j := by
  simp [biquadStep]

/-- A chain writes filter histories and nothing else (R149). -/
theorem fstOnly_biquadChain (E : Env) (ch : Fin 2) (x : F64) (s : State) :
    FstOnly 27 s (biquadChain E ch x s).2 :=
  ((fstOnly_biquadStep E (stageOf ch 0) x s).trans (fstOnly_biquadStep E (stageOf ch 1) _ _)).trans
    (fstOnly_biquadStep E (stageOf ch 2) _ _)

theorem frameOf_biquadChain (E : Env) (ch : Fin 2) (x : F64) (s : State) :
    FrameOf s (biquadChain E ch x s).2 := (fstOnly_biquadChain E ch x s).frameOf

/-- The widener without a delay line writes nothing (R207). -/
theorem midSide_zeroLength (E : Env) (l r : F64) (s : State) (h : s.dlLen = 0) :
    (midSide E l r s).2 = s.tick 9 := by simp [midSide, h]

/-- The widener with a delay line writes one entry and advances both cursors (R204 to R206). -/
theorem midSide_delay (E : Env) (l r : F64) (s : State) (h : s.dlLen ≠ 0) :
    (midSide E l r s).2
      = { s with
          dl := s.dl.set s.dlWidx.toNat
            (F64.div (nan64At E s 3) (F64.sub (nan64At E s 2) l r) F64.two)
          dlWidx := advance s.dlWidx s.dlLen
          dlRidx := advance s.dlRidx s.dlLen
          nanDraw := s.nanDraw + 9 } := by
  simp only [midSide, h, if_false]
  rfl

theorem frameOf_midSide (E : Env) (l r : F64) (s : State) : FrameOf s (midSide E l r s).2 := by
  by_cases h : s.dlLen = 0
  · rw [midSide_zeroLength E l r s h]; rfl
  · rw [midSide_delay E l r s h]; rfl

/-- Mono bypasses the widener (R208). -/
theorem widenFrame_mono (E : Env) (l r : F64) {s : State} (h : s.actCh = .mono) :
    widenFrame E l r s = ((l, r), s) := by simp [widenFrame, h]

theorem widenFrame_stereo (E : Env) (l r : F64) {s : State} (h : s.actCh = .stereo) :
    widenFrame E l r s = midSide E l r s := by simp [widenFrame, h]

/-- In mono only the left sample is stored (R250). -/
theorem emitFrame_mono (E : Env) (n : Nat) (l r : F64) {s : State} (h : s.actCh = .mono) :
    emitFrame E n l r s = emit E (n * 4) l s := by simp [emitFrame, h]

theorem emitFrame_stereo (E : Env) (n : Nat) (l r : F64) {s : State} (h : s.actCh = .stereo) :
    emitFrame E n l r s = emit E (n * 8 + 4) r (emit E (n * 8) l s) := by simp [emitFrame, h]

theorem frameOf_widenFrame (E : Env) (l r : F64) (s : State) : FrameOf s (widenFrame E l r s).2 := by
  unfold widenFrame
  split
  · rfl
  · exact frameOf_midSide E l r s

theorem frameOf_emit (E : Env) (o : Nat) (v : F64) (s : State) : FrameOf s (emit E o v s) := rfl

theorem frameOf_emitFrame (E : Env) (n : Nat) (l r : F64) (s : State) :
    FrameOf s (emitFrame E n l r s) := by
  unfold emitFrame
  split
  · exact frameOf_emit E _ l s
  · exact (frameOf_emit E _ l s).trans (frameOf_emit E _ r _)

/-! ### The stations of a frame -/

/-- The decoded and gained pair of frame `n` (R250). -/
def frameGained (E : Env) (n : Nat) (s : State) : F64 × F64 :=
  gainFrame E (decodeFrame E n s) (s.tick 2)

/-- The left chain's output and the state after it (R250). -/
def frameLeft (E : Env) (n : Nat) (s : State) : F64 × State :=
  biquadChain E 0 (frameGained E n s).1 ((s.tick 2).tick 2)

/-- The right chain's output and the state after it (R250). -/
def frameRight (E : Env) (n : Nat) (s : State) : F64 × State :=
  biquadChain E 1 (frameGained E n s).2 (frameLeft E n s).2

/-- The pair that goes to the limiter and the state before it (R250). -/
def frameWide (E : Env) (n : Nat) (s : State) : (F64 × F64) × State :=
  widenFrame E (frameLeft E n s).1 (frameRight E n s).1 (frameRight E n s).2

/-- A frame is its stations and the output stage (R250). -/
theorem processFrame_eq (E : Env) (n : Nat) (s : State) :
    processFrame E n s
      = emitFrame E n (frameWide E n s).1.1 (frameWide E n s).1.2 (frameWide E n s).2 := rfl

theorem fstOnly_frameLeft (E : Env) (n : Nat) (s : State) : FstOnly 31 s (frameLeft E n s).2 := by
  have h : FstOnly 4 s ((s.tick 2).tick 2) := rfl
  exact h.trans (fstOnly_biquadChain E 0 _ _)

theorem fstOnly_frameRight (E : Env) (n : Nat) (s : State) : FstOnly 58 s (frameRight E n s).2 :=
  (fstOnly_frameLeft E n s).trans (fstOnly_biquadChain E 1 _ _)

theorem frameOf_frameWide (E : Env) (n : Nat) (s : State) : FrameOf s (frameWide E n s).2 :=
  (fstOnly_frameRight E n s).frameOf.trans (frameOf_widenFrame E _ _ _)

theorem frameOf_processFrame (E : Env) (n : Nat) (s : State) : FrameOf s (processFrame E n s) := by
  rw [processFrame_eq]
  exact (frameOf_frameWide E n s).trans (frameOf_emitFrame E n _ _ _)

/-- The widener leaves the memory alone. -/
theorem widenFrame_mem (E : Env) (l r : F64) (s : State) :
    (widenFrame E l r s).2.mem = s.mem := by
  unfold widenFrame
  split
  · rfl
  · by_cases h : s.dlLen = 0
    · rw [midSide_zeroLength E l r s h]; rfl
    · rw [midSide_delay E l r s h]

theorem frameWide_mem (E : Env) (n : Nat) (s : State) : (frameWide E n s).2.mem = s.mem := by
  rw [frameWide, widenFrame_mem, fstOnly_frameRight]

/-- Any number of frames changes only what one frame may change (R250, R260). -/
theorem frameOf_processFrames (E : Env) (k n : Nat) (s : State) :
    FrameOf s (processFrames E k n s) := by
  induction k generalizing n s with
  | zero => rfl
  | succ k ih => exact (frameOf_processFrame E n s).trans (ih (n + 1) _)

/-- `k + m` frames are `k` frames and then `m` more (R260). -/
theorem processFrames_add (E : Env) (k m n : Nat) (s : State) :
    processFrames E (k + m) n s = processFrames E m (n + k) (processFrames E k n s) := by
  induction k generalizing n s with
  | zero => simp [processFrames]
  | succ k ih =>
    rw [Nat.add_right_comm, processFrames, processFrames, ih]
    congr 1
    omega

/-- One output sample leaves every byte but its own four as it was. -/
theorem bufByte_emit (E : Env) (o : Nat) (v : F64) (s : State) (off : Nat)
    (h : ¬ (obufBase + o ≤ off ∧ off < obufBase + o + 4)) :
    bufByte E (emit E o v s) off = bufByte E s off := by
  have := bufByte_obufWrite E o (limit E v s) s off
  rw [if_neg h] at this
  exact this

/-- The output stage leaves every byte but the frame's output bytes as it was (R251). -/
theorem bufByte_emitFrame (E : Env) (n : Nat) (l r : F64) (s : State) (off : Nat)
    (h : ¬ (obufBase + n * (4 * s.actCh.count) ≤ off ∧ off < obufBase + (n + 1) * (4 * s.actCh.count))) :
    bufByte E (emitFrame E n l r s) off = bufByte E s off := by
  unfold emitFrame
  cases hc : s.actCh <;> simp only [hc, Channels.count] at h ⊢
  · exact bufByte_emit E _ _ _ _ (by omega)
  · rw [bufByte_emit E _ _ _ _ (by omega), bufByte_emit E _ _ _ _ (by omega)]

/-- A frame leaves every byte but its own output bytes as it was (R250, R251). -/
theorem bufByte_processFrame (E : Env) (n : Nat) (s : State) (off : Nat)
    (h : ¬ (obufBase + n * (4 * s.actCh.count) ≤ off ∧ off < obufBase + (n + 1) * (4 * s.actCh.count))) :
    bufByte E (processFrame E n s) off = bufByte E s off := by
  have hf := frameOf_frameWide E n s
  rw [processFrame_eq, bufByte_emitFrame E n _ _ _ off (by rw [hf]; exact h)]
  exact bufByte_congr E (by rw [frameWide_mem]) (by rw [hf])

end Sys2Proof.Machine
end

