-- ==== Sys2Proof/Laws/Step.lean ====
section
/-! SUPPORT. What a step can do, said once, and that no command faults or is refused. -/

namespace Sys2Proof.Machine

/-- The meaning of a command as a function of the state: every command answers a next state (R300). -/
def result (i : Instr) (s : State) : State :=
  match i with
  | .nop => nop s
  | .configure => configure Config.env s
  | .process => process Config.env s
  | .flush => flush s
  | .reset => resetCommand s
  | .ldcoef stage => ldcoef stage s
  | .setls stage => setls Config.env stage s
  | .seths stage => seths Config.env stage s
  | .setpk stage => setpk Config.env stage s

theorem exec_eq_result (i : Instr) (s : State) : exec i s = .next (result i s) := by
  cases i <;> rfl

/-- What a command word does to the state (R113, R114). -/
def wordResult (w : Word) (s : State) : State :=
  match decode w with
  | .ok i => result i s
  | .error _ => illegalWord s

theorem runCommand_eq (w : Word) (s : State) : runCommand w s = .next (wordResult w s) := by
  unfold runCommand wordResult
  cases decode w with
  | error _ => rfl
  | ok i => exact exec_eq_result i s

/-- Everything a step can do. -/
theorem step_cases {s t : State} (h : step s = .next t) :
    (s.pending = none ∧ s.inputs = [] ∧ t = s) ∨
    (∃ ev rest, s.pending = none ∧ s.inputs = ev :: rest ∧
      hostEvent Config.env ev { s with inputs := rest } = .next t) ∨
    (∃ w k ev rest, s.pending = some ⟨w, k + 1⟩ ∧ s.inputs = ev :: rest ∧
      hostEvent Config.env ev { s with inputs := rest, pending := some ⟨w, k⟩ } = .next t) ∨
    (∃ c, s.pending = some c ∧ (c.hold = 0 ∨ s.inputs = []) ∧ t = wordResult c.word s) := by
  unfold step nextAction at h
  cases hp : s.pending with
  | none =>
    cases hi : s.inputs with
    | nil => simp only [hp, hi, Host.Outcome.next.injEq] at h; exact .inl ⟨rfl, rfl, h.symm⟩
    | cons ev rest =>
      simp only [hp, hi] at h
      exact .inr (.inl ⟨ev, rest, rfl, rfl, by simpa [hp] using h⟩)
  | some c =>
    obtain ⟨w, k⟩ := c
    cases k with
    | zero =>
      simp only [hp, runCommand_eq, Host.Outcome.next.injEq] at h
      exact .inr (.inr (.inr ⟨⟨w, 0⟩, rfl, .inl rfl, h.symm⟩))
    | succ k =>
      cases hi : s.inputs with
      | nil =>
        simp only [hp, hi, runCommand_eq, Host.Outcome.next.injEq] at h
        exact .inr (.inr (.inr ⟨⟨w, k + 1⟩, rfl, .inr rfl, h.symm⟩))
      | cons ev rest =>
        simp only [hp, hi] at h
        exact .inr (.inr (.inl ⟨w, k, ev, rest, rfl, rfl, h⟩))

/-- Everything an event from outside can do. -/
theorem hostEvent_cases {E : Env} {ev : Input} {s t : State} (h : hostEvent E ev s = .next t) :
    (∃ addr w p, ev = .read addr w ∧ locate E.P addr w = .ok p ∧ t = hostRead E p w s) ∨
    (∃ addr w v p, ev = .write addr w v ∧ locate E.P addr w = .ok p ∧ t = hostWrite E p w v s) ∨
    (ev = .wait ∧ t = hostWait s) ∨ (ev = .powerOn ∧ t = powerOn s) := by
  cases ev with
  | read addr w =>
    simp only [hostEvent] at h
    cases hl : locate E.P addr w with
    | error f => simp [hl] at h
    | ok p =>
      simp only [hl, Host.Outcome.next.injEq] at h
      exact .inl ⟨addr, w, p, rfl, hl, h.symm⟩
  | write addr w v =>
    simp only [hostEvent] at h
    cases hl : locate E.P addr w with
    | error f => simp [hl] at h
    | ok p =>
      simp only [hl, Host.Outcome.next.injEq] at h
      exact .inr (.inl ⟨addr, w, v, p, rfl, hl, h.symm⟩)
  | wait =>
    simp only [hostEvent, Host.Outcome.next.injEq] at h
    exact .inr (.inr (.inl ⟨rfl, h.symm⟩))
  | powerOn =>
    simp only [hostEvent, Host.Outcome.next.injEq] at h
    exact .inr (.inr (.inr ⟨rfl, h.symm⟩))

/-- The window offset of the bus address of an offset in the window (R35, R80). -/
theorem windowOffset_busAddr (P : Params) (off : Nat) (h : off < 0x80000) :
    windowOffset P (P.base + BitVec.ofNat 32 off) = some off := by
  have : (P.base + BitVec.ofNat 32 off - P.base).toNat = off := by
    rw [BitVec.add_comm, BitVec.add_sub_cancel, BitVec.toNat_ofNat]
    omega
  rw [windowOffset, this]
  exact if_pos h

/-- The read of one host event changes no state of ZMDSP (R90). -/
theorem hostRead_frame (E : Env) (p : Place) (w : Width) (s : State) :
    hostRead E p w s
      = { s with replies := (hostRead E p w s).replies, busDraw := (hostRead E p w s).busDraw } := by
  unfold hostRead
  split <;> rfl

end Sys2Proof.Machine
end

