-- ==== Sys2Proof/Tests/Slice0.lean ====
section
/-! SUPPORT. Small tests against the spec's own vectors (95_test_vectors.md and the worked examples of the
rules), and a witness for the hypotheses of every statement. -/

open Sys2Proof Sys2Proof.Machine

namespace Sys2Proof.Tests

/-! ### Helpers -/

/-- A concrete environment: the sample parameters (`W = 1.5`, gains 1.0) and draws that are all 0. -/
def env : Env := ⟨Config.sample, ⟨fun _ => 0, fun _ => 0, fun _ _ => 0, fun _ => 0, fun _ => 0⟩⟩

/-- The NaN patterns of the concrete environment. -/
def q : Nat → F64 := fun _ => F64.quietNaN

/-- The identity coefficients of rule R155. -/
def ident : Coef := ⟨F64.one, 0, 0, 0, 0⟩

/-- The coefficients of the first vectors of 95_test_vectors.md section 2.4. -/
def sampleCoef : Coef :=
  ⟨0x3FE0000000000000, 0x3FD0000000000000, 0x3FC0000000000000, 0xBFE0000000000000, 0x3FD0000000000000⟩

/-- Idle, with one event to come. -/
def idleWith (ev : Input) : State := { State.reset with inputs := [ev] }

/-- Busy for two more events, with one event to come. -/
def busyWith (ev : Input) : State := { State.reset with inputs := [ev], pending := some ⟨3, 2⟩ }

/-- Configured at 250 Hz (`L = 5`, `D = 1`, R215), stereo PCM16, identity filters. -/
def at250 : State :=
  { State.reset with
    fsm := .configured, actFs := 250, coef := Vector.replicate 6 ident, dlLen := 5, dlDelay := 1,
    dlRidx := 4, dl := List.replicate 5 0 }

/-- `at250` with the first frame of program P1 in IBUF: left 0x4000 (0.5), right 0x0000. -/
def firstFrame : State :=
  { at250 with inLen := 4, mem := [(0x20000, 0x00), (0x20001, 0x40), (0x20002, 0x00), (0x20003, 0x00)] }

/-- Three operand registers of a designer command, and `Q`. -/
def withOperands (freq fs gain Q : F64) : State :=
  { State.reset with opd := #v[freq, fs, gain, Q, 0] }

/-- `100.0`, `48000.0`, `24000.0`. -/
def hz100 : F64 := 0x4059000000000000
def hz48000 : F64 := 0x40E7700000000000
def hz24000 : F64 := 0x40D7700000000000

/-! ### WellFormed -/

theorem test_illFormed_ldcoef : ¬ (Instr.ldcoef 6).WellFormed := by decide
theorem test_illFormed_setls : ¬ (Instr.setls 7).WellFormed := by decide
theorem test_illFormed_seths : ¬ (Instr.seths 6).WellFormed := by decide
theorem test_illFormed_setpk : ¬ (Instr.setpk 7).WellFormed := by decide
theorem test_wellFormed_last_stage : (Instr.setpk 5).WellFormed ∧ Instr.nop.WellFormed := by decide

/-! ### Decoding, from words written bit by bit: RSV, STAGE, OPC (R110, R112, R121) -/

theorem test_decode_nop : decode 0b000000000000000000000_000_00000000 = .ok .nop := by decide
theorem test_decode_configure : decode 0b000000000000000000000_000_00000001 = .ok .configure := by decide
theorem test_decode_process : decode 0b000000000000000000000_000_00000010 = .ok .process := by decide
theorem test_decode_flush : decode 0b000000000000000000000_000_00000011 = .ok .flush := by decide
theorem test_decode_reset : decode 0b000000000000000000000_000_00000100 = .ok .reset := by decide
theorem test_decode_ldcoef : decode 0b000000000000000000000_101_00010000 = .ok (.ldcoef 5) := by decide
theorem test_decode_setls : decode 0b000000000000000000000_011_00010001 = .ok (.setls 3) := by decide
theorem test_decode_seths : decode 0b000000000000000000000_010_00010010 = .ok (.seths 2) := by decide
theorem test_decode_setpk : decode 0b000000000000000000000_100_00010011 = .ok (.setpk 4) := by decide

/-- The ILLEGAL words of 95_test_vectors.md section 2.1, by name. -/
theorem test_decode_illegal :
    decode 0x00000005 = .error .reservedOpcode ∧ decode 0x0000000F = .error .reservedOpcode ∧
    decode 0x00000014 = .error .reservedOpcode ∧ decode 0x000000FF = .error .reservedOpcode ∧
    decode 0x00000610 = .error .stageOutOfRange ∧ decode 0x00000710 = .error .stageOutOfRange ∧
    decode 0x00000101 = .error .stageNotZero ∧ decode 0x00000800 = .error .reservedBits ∧
    decode 0x00000813 = .error .reservedBits ∧ decode 0xFFFFFFFF = .error .reservedBits := by decide

theorem test_encode : encode (.setpk 4) = 0x00000413 ∧ encode .flush = 0x00000003 := by decide

theorem test_decodeTableWord : decodeTableWord 32 0x212 = some (.seths 2) := by decide

/-! ### Arithmetic and the codec (95_test_vectors.md section 2.3) -/

theorem test_pcm16 :
    pcm16ToFp 0x0000 = 0 ∧ pcm16ToFp 0x0001 = 0x3F00000000000000 ∧
    pcm16ToFp 0x7FFF = 0x3FEFFFC000000000 ∧ pcm16ToFp 0x8000 = 0xBFF0000000000000 ∧
    pcm16ToFp 0xFFFF = 0xBF00000000000000 := by decide +kernel

theorem test_widening :
    pcmfToFp 0 0x80000000 = 0x8000000000000000 ∧ pcmfToFp 0 0x00000001 = 0x36A0000000000000 ∧
    pcmfToFp 0 0x3DCCCCCD = 0x3FB99999A0000000 ∧ pcmfToFp 0 0x7F7FFFFF = 0x47EFFFFFE0000000 ∧
    pcmfToFp 0 0xFF800000 = 0xFFF0000000000000 := by decide +kernel

theorem test_narrowing :
    fpToPcm 0 0x3FD5555555555555 = 0x3EAAAAAB ∧ fpToPcm 0 0x3FEFFFFFF0000000 = 0x3F800000 ∧
    fpToPcm 0 0x37A16C262777579C = 0x000116C2 ∧ fpToPcm 0 0x3690000000000000 = 0x00000000 ∧
    fpToPcm 0 0x3690000000000001 = 0x00000001 ∧ fpToPcm 0 0xB58DEE7A4AD4B81F = 0x80000000 ∧
    fpToPcm 0 0x47EFFFFFEFFFFFFF = 0x7F7FFFFF ∧ fpToPcm 0 0x47EFFFFFF0000000 = 0x7F800000 := by
  decide +kernel

/-- R184: a whole stereo frame, and the short frame of three bytes. -/
theorem test_decodeFrame :
    decodeFrame env 0 firstFrame = (0x3FE0000000000000, 0) ∧
    decodeFrame env 0 { firstFrame with inLen := 3 } = (0, 0) := by decide +kernel

/-! ### The filter stage (95_test_vectors.md section 2.4) -/

/-- The first row: the history is shifted, the output is 0.25. -/
theorem test_biquad_history :
    let s := { State.reset with coef := Vector.replicate 6 sampleCoef }
    (biquadStep env 0 0x3FE0000000000000 s).1 = 0x3FD0000000000000 ∧
    (biquadStep env 0 0x3FE0000000000000 s).2.fstAt 0
      = ⟨0x3FE0000000000000, 0, 0x3FD0000000000000, 0⟩ := by decide +kernel

/-- The third row: every coefficient and every history value enters. -/
theorem test_biquad_sum :
    biquadOut q sampleCoef ⟨0, 0x3FE0000000000000, 0x3FD0000000000000, 0x3FD0000000000000⟩ 0
      = 0x3FC0000000000000 := by decide +kernel

/-- The floor itself is kept, the value below it is snapped, and -0.0 becomes +0.0. -/
theorem test_biquad_floor :
    biquadOut q ident Hist.zero 0x3ABEF2D0F5DA7DD9 = 0x3ABEF2D0F5DA7DD9 ∧
    biquadOut q ident Hist.zero 0x3ABEF2D0F5DA7DD8 = 0 ∧
    biquadOut q ident Hist.zero 0x8000000000000000 = 0 := by decide +kernel

/-- A product of 0 and infinity makes the sum a NaN, here the pattern handed in. -/
theorem test_biquad_nan :
    biquadOut q ⟨F64.one, 0, 0, 0, 0⟩ ⟨0x7FF0000000000000, 0, 0, 0⟩ 0x3FE0000000000000
      = F64.quietNaN := by decide +kernel

/-! ### The widener and the limiter (95_test_vectors.md sections 2.6 and 2.7) -/

/-- The first row: 0.625 and -0.125, the side value in `DL[0]`, the cursors at 1 and 0. -/
theorem test_widener :
    (midSide env 0x3FE0000000000000 0 at250).1 = (0x3FE4000000000000, 0xBFC0000000000000) ∧
    (midSide env 0x3FE0000000000000 0 at250).2.dl = [0x3FD0000000000000, 0, 0, 0, 0] ∧
    (midSide env 0x3FE0000000000000 0 at250).2.dlWidx = 1 ∧
    (midSide env 0x3FE0000000000000 0 at250).2.dlRidx = 0 := by decide +kernel

/-- The third row: no line, so the side signal passes unscaled. -/
theorem test_widener_without_line :
    (midSide env 0x3FE0000000000000 0x3FD0000000000000 State.reset).1
      = (0x3FE0000000000000, 0x3FD0000000000000) := by decide +kernel

theorem test_limit_hard :
    limitWith Config.sample .hard 0 0 0x400A000000000000 = 0x3F7D70A4 ∧
    limitWith Config.sample .hard 0 0 0xC011000000000000 = 0xBF7D70A4 ∧
    limitWith Config.sample .hard 0 0 0x8000000000000000 = 0x80000000 ∧
    limitWith Config.sample .hard 0 0 0x3FE4000000000000 = 0x3F200000 := by decide +kernel

theorem test_limit_soft_infinity :
    limitWith Config.sample .soft 0 0 0x7FF0000000000000 = 0x3F800000 ∧
    limitWith Config.sample .soft 0 0 0xFFF0000000000000 = 0xBF800000 := by decide +kernel

/-! ### The commands (95_test_vectors.md sections 2.5, 2.8 to 2.10) -/

theorem test_nop_clears_err :
    (nop { State.reset with err := .contract }).err = .ok := by decide

/-- Program P1's configuration. -/
theorem test_configure_250 :
    let t := configure env { State.reset with cfgFs := 250 }
    (t.err, t.fsm, t.actFs, t.dlLen, t.dlDelay, t.dlWidx, t.dlRidx)
      = (.ok, .configured, 250, 5, 1, 0, 4) := by decide +kernel

/-- CONTRACT is checked before UNSUPPORTED; a rejection leaves UNCONFIGURED. -/
theorem test_configure_rejects :
    (configure env { at250 with cfgFs := 0, cfgCh := 3 }).err = .contract ∧
    (configure env { at250 with cfgCh := 3 }).err = .unsupported ∧
    (configure env { at250 with cfgEnc := 1, ctrlFloat := .reject }).err = .unsupported ∧
    (configure env { at250 with cfgFs := 48025 }).err = .unsupported ∧
    (configure env { at250 with cfgCh := 3 }).fsm = .unconfigured := by decide +kernel

/-- Program P1, frame 0: 0.625 and -0.125 in OBUF. -/
theorem test_process_first_frame :
    let t := process env firstFrame
    (bufRead32 env t 0x40000, bufRead32 env t 0x40004, t.outFrames, t.outBytes, t.fsm, t.err)
      = (0x3F200000, 0xBE000000, 1, 8, .processing, .ok) := by decide +kernel

/-- STATE before LENGTH, and LENGTH leaves the machine as it was. -/
theorem test_process_refused :
    (process env { State.reset with inLen := 0x20001 }).err = .state ∧
    (process env { at250 with inLen := 65 }).err = .length ∧
    (process env { at250 with inLen := 65 }).fsm = .configured := by decide

theorem test_flush :
    let t := flush { at250 with fsm := .processing, dlWidx := 3, dl := [1, 2, 3, 4, 5] }
    (t.fsm, t.dlWidx, t.dlRidx, t.dl, t.err) = (.configured, 0, 4, [0, 0, 0, 0, 0], .ok) := by decide

/-- Section 2.10: `ACT_FMT = 0x00010101` becomes `0x00010002`. -/
theorem test_reset :
    let t := resetCommand
      { at250 with hz := true, actCh := .mono, actEnc := .pcmFloat, actClip := .soft, fsm := .processing }
    (t.actFs, actFmtWord t, t.hz, t.fsm, t.dlLen) = (48000, 0x00010002, false, .unconfigured, 5) := by
  decide

/-- Any pattern is stored, in UNCONFIGURED too, and only into its own stage. -/
theorem test_ldcoef :
    let t := ldcoef 3 (withOperands 0x7FF8000000000000 1 2 3)
    t.coefAt 3 = ⟨0x7FF8000000000000, 1, 2, 3, 0⟩ ∧ t.coefAt 2 = coefZero ∧ t.fsm = .unconfigured ∧
    t.err = .ok := by decide

/-- `Q` is not read; a gain of +0.0 fails the contract. -/
theorem test_setls :
    (setls env 0 (withOperands hz100 hz48000 F64.one F64.quietNaN)).err = .ok ∧
    (setls env 0 (withOperands hz100 hz48000 F64.one 0)).coefAt 0 = ident ∧
    (setls env 0 (withOperands hz100 hz48000 0 0)).err = .contract := by decide +kernel

/-- The Nyquist frequency itself fails the contract. -/
theorem test_seths :
    (seths env 2 (withOperands hz24000 hz48000 F64.two 0)).err = .contract ∧
    (seths env 2 (withOperands hz24000 hz48000 F64.two 0)).coefAt 2 = coefZero ∧
    (seths env 2 (withOperands (hz24000 - 1) hz48000 F64.two 0)).err = .ok := by decide +kernel

/-- `Q` must be above zero. -/
theorem test_setpk :
    (setpk env 1 (withOperands hz100 hz48000 F64.one 0)).err = .contract ∧
    (setpk env 1 (withOperands hz100 hz48000 F64.one 0x8000000000000000)).err = .contract ∧
    (setpk env 1 (withOperands hz100 hz48000 F64.one 0x3FE6A0902DE00D1B)).err = .ok := by
  decide +kernel

/-! ### The host interface (95_test_vectors.md sections 2.2 and 2.11) -/

theorem test_status_word :
    statusWord { State.reset with fsm := .configured, err := .length } = 0x00000052 ∧
    statusWord { State.reset with hz := true, pending := some ⟨0, 0⟩ } = 0x00000009 := by decide

theorem test_reserved_bits :
    ctrlWord (writeCtrl 0xFFFFFFFF State.reset) = 0x00000003 ∧
    cfgFmtWord (writeCfgFmt 0xFFFFFFFF State.reset) = 0x000003FF := by decide

/-- Register offsets of rule R35 and of the stage banks (R67). -/
theorem test_register_map :
    regAt 0x000C = .id ∧ regAt 0x0018 = .inLen ∧ regAt 0x0038 = .dlRidx ∧ regAt 0x0044 = .paramObuf ∧
    regAt 0x0050 = .reserved ∧ regAt 0x00A4 = .opd 4 .hi ∧ regAt 0x0158 = .bank 0 .y2 .lo ∧
    regAt 0x03A4 = .bank 5 .b2 .hi ∧ regAt 0x03A8 = .reserved := by decide

/-- Misaligned and narrow accesses outside IBUF are bus errors; IBUF takes bytes and halves. -/
theorem test_places :
    placeOf Config.sample 0x0002 .b4 = none ∧ placeOf Config.sample 0x0004 .b2 = none ∧
    placeOf Config.sample 0x20001 .b2 = none ∧ placeOf Config.sample 0x20040 .b1 = none ∧
    placeOf Config.sample 0x2003F .b1 = some (.ibuf 0x2003F) ∧
    placeOf Config.sample 0x4007C .b4 = some (.obuf 0x4007C) ∧
    placeOf Config.sample 0x40080 .b4 = none := by decide

/-- Two byte writes compose little-endian. -/
theorem test_bytes_compose :
    ibufRead16 env (writePlace env (.ibuf 0x20000) .b1 0x00
      (writePlace env (.ibuf 0x20001) .b1 0x80 State.reset)) 0 = 0x8000 := by decide

/-- A write of IN_LEN while busy is dropped and sets HZ. -/
theorem test_write_while_busy :
    let t := hostWrite env (.reg 0x18) .b4 5 (busyWith .wait)
    (t.inLen, t.hz) = (0, true) := by decide

/-- The first command after power-on is the one placed. -/
theorem test_step_runs_placed_command :
    step (State.reset.withFetchWord 32 0x00000003) = exec .flush (State.reset.withFetchWord 32 3) := by
  rfl

/-! ### Witnesses: the hypotheses of every statement can be met, at the boundary values of its clauses -/

/-- The address of a window offset of this ZMDSP. -/
def at_ (off : Nat) : Word := busAddr Config.params off

theorem test_idle_host_moves (ev : Input) :
    Claims.HostMoves (idleWith ev) ev [] ∧ (idleWith ev).busy = false := by
  refine ⟨⟨rfl, ?_⟩, rfl⟩
  intro c h
  cases h

theorem test_busy_host_moves (ev : Input) :
    Claims.HostMoves (busyWith ev) ev [] ∧ (busyWith ev).busy = true := by
  refine ⟨⟨rfl, ?_⟩, rfl⟩
  rintro c ⟨⟩
  decide

/-- The parameters admit a length of 0, 4 and 8, and the delay line of 48000 Hz. -/
theorem test_parameters_admit :
    8 ≤ Config.params.ibufBytes ∧ Config.params.ibufBytes < 0x20001 ∧ 960 ≤ Config.params.dlMax ∧
    Config.params.dlMax ≤ 8192 ∧ 16 ≤ Config.params.obufBytes :=
  ⟨Config.params_ok.ibufBytes.2.1, Nat.lt_succ_of_le Config.params_ok.ibufBytes.2.2,
    Config.params_ok.dlMax.1, Config.params_ok.dlMax.2,
    le_trans (by have := Config.params_ok.ibufBytes.2.1; omega) Config.params_ok.obufBytes.1⟩

theorem test_witness_DecodeAcceptsExactlyTheEncodedCommands :
    decode 0x00000510 = .ok (.ldcoef 5) ∧ (Instr.ldcoef 5).WellFormed ∧
    encode (.ldcoef 5) = 0x00000510 := by decide

theorem test_witness_IllegalWordOnlySetsErr :
    (State.reset.withCommand 0x00000610).pending = some ⟨0x00000610, 0⟩ ∧
    decode 0x00000610 = .error .stageOutOfRange := by decide

theorem test_witness_ReservedEncodingsAreTheIllegalOnes :
    (State.reset.withCommand 0x00000005).pending = some ⟨0x00000005, 0⟩ ∧
    (State.reset.withCommand 0x00000004).pending = some ⟨0x00000004, 0⟩ := by decide

/-- Both ways a command comes to complete: its hold is over, or there is no event. -/
theorem test_witness_StepRunsTheDecodedCommand :
    (State.reset.withCommand 2).pending = some ⟨2, 0⟩ ∧ decode 2 = .ok .process ∧
    ({ State.reset with pending := some ⟨2, 3⟩ } : State).inputs = [] := by decide

theorem test_witness_StepServesTheNextEvent :
    Claims.HostMoves (idleWith .wait) .wait [] ∧ Claims.HostMoves (busyWith .wait) .wait [] ∧
    State.reset.pending = none ∧ State.reset.inputs = [] :=
  ⟨(test_idle_host_moves _).1, (test_busy_host_moves _).1, rfl, rfl⟩

theorem test_legal_read (off : Nat) (w : Width) (h : off < 0x80000)
    (hl : LegalOffset Config.params off w) : (Input.read (at_ off) w).Legal Config.params :=
  ⟨off, h, rfl, hl⟩

theorem test_legal_write (off : Nat) (w : Width) (v : Word) (h : off < 0x80000)
    (hl : LegalOffset Config.params off w) : (Input.write (at_ off) w v).Legal Config.params :=
  ⟨off, h, rfl, hl⟩

/-- A safe state, and a step that faults. -/
theorem test_witness_LegalHostNeverFaults :
    (idleWith (.read (at_ 4) .b4)).Safe Config.params ∧
    ∃ f, step (idleWith (.read (at_ 2) .b4)) = .fault f := by
  constructor
  · intro ev h
    obtain rfl : ev = .read (at_ 4) .b4 := by simpa [idleWith] using h
    exact test_legal_read 4 .b4 (by decide) (.inl (by decide))
  · have hw : windowOffset Config.params (at_ 2) = some 2 := windowOffset_busAddr _ 2 (by decide)
    exact ⟨.busError (at_ 2) .b4, by
      simp [step, nextAction, idleWith, State.reset, hostEvent, locate, Config.env, hw, placeOf]⟩

theorem test_witness_CommandCompletesInBoundedSteps :
    (busyWith .wait).pending = some ⟨3, 2⟩ ∧ (busyWith .wait).Safe Config.params := by
  refine ⟨rfl, ?_⟩
  intro ev h
  obtain rfl : ev = .wait := by simpa [busyWith] using h
  trivial

/-- CMD is written idle and busy, and read idle. -/
theorem test_witness_CmdWriteIssuesOrIsDropped :
    (∀ s ∈ [idleWith (.write (at_ 0) .b4 3), busyWith (.write (at_ 0) .b4 3)],
      Claims.HostMoves s (.write (at_ 0) .b4 3) []) ∧
    Claims.HostMoves (idleWith (.read (at_ 0) .b4)) (.read (at_ 0) .b4) [] := by
  refine ⟨?_, (test_idle_host_moves _).1⟩
  intro s h
  simp only [List.mem_cons, List.not_mem_nil, or_false] at h
  rcases h with rfl | rfl
  · exact (test_idle_host_moves _).1
  · exact (test_busy_host_moves _).1

theorem test_witness_WritesWhileBusyAreDropped :
    Claims.HostMoves (busyWith (.write (at_ 0x18) .b4 5)) (.write (at_ 0x18) .b4 5) [] ∧
    (Input.write (at_ 0x18) .b4 5).Legal Config.params ∧
    (busyWith (.write (at_ 0x18) .b4 5)).busy = true :=
  ⟨(test_busy_host_moves _).1, test_legal_write _ _ _ (by decide) (.inl (by decide)), rfl⟩

/-- A busy read of STATUS, of the registers beside it, of the first IBUF byte; an idle read. -/
theorem test_witness_ReadsWhileBusyAndIdle :
    (∀ off ∈ [0, 4, 8, 0x1FFFC], LegalOffset Config.params off .b4 ∧
      Claims.HostMoves (busyWith (.read (at_ off) .b4)) (.read (at_ off) .b4) [] ∧
      Claims.HostMoves (idleWith (.read (at_ off) .b4)) (.read (at_ off) .b4) []) ∧
    LegalOffset Config.params 0x20000 .b1 := by
  constructor
  · intro off h
    refine ⟨.inl ?_, (test_busy_host_moves _).1, (test_idle_host_moves _).1⟩
    simp only [List.mem_cons, List.not_mem_nil, or_false] at h
    rcases h with rfl | rfl | rfl | rfl <;> decide
  · exact .inr (.inl ⟨by decide, by decide, by have := test_parameters_admit.1; simp [Width.bytes]; omega⟩)

/-- A misaligned read, a narrow write, and the last byte of the register page. -/
theorem test_witness_IllegalAccessIsBusError :
    (¬ LegalOffset Config.params 2 .b4 ∧ ¬ LegalOffset Config.params 4 .b2 ∧
      ¬ LegalOffset Config.params 0x1FFFF .b1) ∧
    Claims.HostMoves (idleWith (.read (at_ 2) .b4)) (.read (at_ 2) .b4) [] ∧
    Claims.HostMoves (busyWith (.write (at_ 4) .b2 0)) (.write (at_ 4) .b2 0) [] :=
  ⟨⟨by simp [LegalOffset], by simp [LegalOffset], by simp [LegalOffset]⟩,
    (test_idle_host_moves _).1, (test_busy_host_moves _).1⟩

theorem test_witness_HostAccessesTouchOnlyStaging :
    (∃ t, step (idleWith .wait) = .next t) ∧ (∃ t, step (busyWith .wait) = .next t) :=
  ⟨⟨_, rfl⟩, ⟨_, rfl⟩⟩

/-- The ends of every range of ignored writes and of zero reads. -/
theorem test_witness_ReadOnlyOffsetsIgnoreWrites :
    (∀ off ∈ [0x04, 0x0C, 0x1C, 0x7C, 0xA8, 0x100, 0x3FC, 0xFFFC, 0x10000, 0x1FFFC],
      off % 4 = 0 ∧ (off < 0x20000 ∧ off ≠ 0x00 ∧ off ≠ 0x08 ∧ off ≠ 0x10 ∧ off ≠ 0x14 ∧ off ≠ 0x18 ∧
          ¬ (0x80 ≤ off ∧ off < 0xA8))) ∧
    0x40000 + 4 ≤ 0x40000 + Config.params.obufBytes ∧
    (∀ off ∈ [0, 0x48, 0x7C, 0xA8, 0xFC, 0x400, 0xFFFC, 0x128, 0x13C, 0x160, 0x3FC],
      off % 4 = 0 ∧ (off = 0 ∨ (0x48 ≤ off ∧ off < 0x80) ∨ (0xA8 ≤ off ∧ off < 0x100) ∨
        (0x400 ≤ off ∧ off < 0x10000) ∨ (0x100 ≤ off ∧ off < 0x400 ∧ 0x28 ≤ off % 0x80 ∧ off % 0x80 < 0x40) ∨
        (0x100 ≤ off ∧ off < 0x400 ∧ 0x60 ≤ off % 0x80))) :=
  ⟨by decide, by have := test_parameters_admit.2.2.2.2; omega, by decide⟩

theorem test_witness_StagingRegisterWrites :
    ∀ off ∈ [0x08, 0x10, 0x14, 0x18], ∀ v ∈ [(0 : Word), 0xFFFFFFFF],
      Claims.HostMoves (idleWith (.write (at_ off) .b4 v)) (.write (at_ off) .b4 v) [] :=
  fun _ _ _ _ => (test_idle_host_moves _).1

theorem test_witness_OperandRegisterWrites :
    ∀ n ∈ [(0 : Fin 5), 4], ∀ off ∈ [0x80 + 8 * n.val, 0x84 + 8 * n.val],
      Claims.HostMoves (idleWith (.write (at_ off) .b4 1)) (.write (at_ off) .b4 1) [] :=
  fun _ _ _ _ => (test_idle_host_moves _).1

/-- The first word and the last byte of IBUF. -/
theorem test_witness_InputBufferWrites :
    0x20000 + 4 ≤ 0x20000 + Config.params.ibufBytes ∧
    0x20000 ≤ 0x20000 + Config.params.ibufBytes - 1 ∧
    0x20000 + Config.params.ibufBytes - 1 + 1 ≤ 0x20000 + Config.params.ibufBytes ∧
    Claims.HostMoves (idleWith (.write (at_ 0x20000) .b4 1)) (.write (at_ 0x20000) .b4 1) [] := by
  have := test_parameters_admit.1
  exact ⟨by omega, by omega, by omega, (test_idle_host_moves _).1⟩

theorem test_witness_ReadbackWindows :
    ((0x58, (State.reset.fstAt 5).y2) : Nat × F64) ∈ Claims.bankTable State.reset 5 ∧
    ((0x00, (State.reset.coefAt 0).a0) : Nat × F64) ∈ Claims.bankTable State.reset 0 := by
  constructor <;> simp [Claims.bankTable]

/-- Power-on reset of an idle machine and inside a command. -/
theorem test_witness_PowerOnLeavesTheResetValues :
    Claims.HostMoves (idleWith .powerOn) .powerOn [] ∧
    Claims.HostMoves (busyWith .powerOn) .powerOn [] :=
  ⟨(test_idle_host_moves _).1, (test_busy_host_moves _).1⟩

/-- The delay line of 48000 Hz and the empty line of 24 Hz fit. -/
theorem test_lengths : Claims.lengthAt 48000#32 = 960 ∧ Claims.lengthAt 24#32 = 0 ∧
    Claims.lengthAt 48025#32 = 961 ∧ 8192 < Claims.lengthAt 4294967295#32 := by decide +kernel

theorem test_witness_ConfigureAcceptedEffect :
    Claims.configureCode Config.params State.reset = none ∧
    Claims.configureCode Config.params { State.reset with cfgFs := 24, cfgCh := 1, cfgEnc := 1 } = none := by
  have h : ¬ Config.params.dlMax < 960 := not_lt.mpr test_parameters_admit.2.2.1
  constructor
  · simp [Claims.configureCode, State.reset, test_lengths.1, h]
  · simp [Claims.configureCode, State.reset, test_lengths.2.1]

/-- One state for each check of CONFIGURE, and one that passes them all. -/
theorem test_witness_ConfigureRejectedEffect :
    Claims.configureCode Config.params { State.reset with cfgFs := 0 } = some .contract ∧
    Claims.configureCode Config.params { State.reset with cfgCh := 0 } = some .contract ∧
    Claims.configureCode Config.params { State.reset with cfgCh := 3 } = some .unsupported ∧
    Claims.configureCode Config.params { State.reset with cfgEnc := 2 } = some .unsupported ∧
    Claims.configureCode Config.params { State.reset with cfgEnc := 1, ctrlFloat := .reject }
      = some .unsupported ∧
    Claims.configureCode Config.params { State.reset with cfgFs := 0xFFFFFFFF } = some .unsupported ∧
    Claims.configureCode Config.params State.reset = none := by
  have h : Config.params.dlMax < Claims.lengthAt 4294967295#32 :=
    lt_of_le_of_lt test_parameters_admit.2.2.2.1 test_lengths.2.2.2
  refine ⟨?_, ?_, ?_, ?_, ?_, ?_, test_witness_ConfigureAcceptedEffect.1⟩ <;>
    simp [Claims.configureCode, State.reset, h]

theorem test_configure_accepts : ∃ t, exec .configure State.reset = .next t ∧ t.err = .ok := by
  have hl : delayLength (rateOperand State.reset) = 960 := test_lengths.1
  have h : ¬ Config.params.dlMax < 960 := not_lt.mpr test_parameters_admit.2.2.1
  refine ⟨_, rfl, ?_⟩
  have hc : configureCheck Config.env State.reset = .ok (.stereo, .pcm16) := by
    rw [configureCheck, hl]
    simp [State.reset, channelsOf, encOf, Config.env, h]
  rw [configure, hc]
  rfl

theorem test_witness_FlushIsIdempotent :
    (∃ t, exec .flush at250 = .next t) ∧ (∃ t, exec .configure State.reset = .next t ∧ t.err = .ok) :=
  ⟨⟨_, rfl⟩, test_configure_accepts⟩

theorem test_witness_ConfigureMeetsTheDesignerContract :
    (1 : Word) ≠ 0 ∧ (0xFFFFFFFF : Word) ≠ 0 := by decide

/-- No input, and a full input buffer. -/
theorem test_witness_ProcessCompletesAndCounts :
    at250.fsm ≠ .unconfigured ∧ at250.inLen.toNat ≤ Config.params.ibufBytes ∧
    ({ at250 with inLen := BitVec.ofNat 32 Config.params.ibufBytes } : State).inLen.toNat
      ≤ Config.params.ibufBytes := by
  refine ⟨by decide, Nat.zero_le _, ?_⟩
  simpa using Nat.mod_le _ _

/-- A PROCESS of 8 bytes, two stereo PCM16 frames, completes. -/
theorem test_process_eight :
    ∃ t, exec .process { at250 with inLen := 8 } = .next t ∧ t.err = .ok ∧ t.outFrames = 2 := by
  have h : ¬ Config.params.ibufBytes < 8 := not_lt.mpr test_parameters_admit.1
  refine ⟨_, rfl, ?_⟩
  simp [process, at250, Config.env, h, State.complete, frameCount, frameBytes, State.reset,
    Channels.count, Enc.bytes]

/-- Every way a PROCESS ends: OK, STATE and LENGTH. -/
theorem test_witness_ProcessLeavesTheRest :
    (∃ t, exec .process { at250 with inLen := 8 } = .next t ∧ t.err = .ok) ∧
    State.reset.fsm = .unconfigured ∧
    Config.params.ibufBytes < ({ at250 with inLen := 0x20001 } : State).inLen.toNat :=
  ⟨test_process_eight.imp fun _ h => ⟨h.1, h.2.1⟩, rfl, test_parameters_admit.2.1⟩

/-- The first byte of frame 0 and the last byte of frame 1. -/
theorem test_witness_ProcessKeepsEveryFramesOutput :
    ∃ t, exec .process { at250 with inLen := 8 } = .next t ∧ t.err = .ok ∧
      ∀ n k, (n, k) ∈ [(0, 0), (1, 7)] → n < t.outFrames.toNat ∧ k < 4 * at250.actCh.count := by
  obtain ⟨t, h, he, hf⟩ := test_process_eight
  refine ⟨t, h, he, ?_⟩
  rw [hf]
  simp only [List.mem_cons, List.not_mem_nil, or_false, Prod.mk.injEq]
  rintro n k (⟨rfl, rfl⟩ | ⟨rfl, rfl⟩) <;> decide

theorem test_witness_FrameFollowsItsRule :
    ({ at250 with actCh := .mono } : State).actCh = .mono ∧ at250.actCh = .stereo := by decide

/-- 8 bytes split after the first frame: IBUF then holds the last four of them. -/
theorem test_witness_SplitStreamGivesTheSameOutput :
    let s : State := { at250 with inLen := 8 }
    ∃ t1 t2 t : State, ∃ m : Memory,
      s.fsm ≠ .unconfigured ∧ s.inLen.toNat ≤ Config.params.ibufBytes ∧
      s.inLen.toNat = 1 * frameBytes s + 4 ∧
      exec .process { s with inLen := BitVec.ofNat 32 (1 * frameBytes s) } = .next t1 ∧
      (∀ o, o < 4 → bufByte Config.env { t1 with mem := m } (ibufBase + o)
        = bufByte Config.env s (ibufBase + 1 * frameBytes s + o)) ∧
      exec .process { t1 with mem := m, inLen := BitVec.ofNat 32 4 } = .next t2 ∧
      exec .process s = .next t := by
  intro s
  refine ⟨_, _, _,
    [(0x20000, bufByte Config.env s 0x20004), (0x20001, bufByte Config.env s 0x20005),
      (0x20002, bufByte Config.env s 0x20006), (0x20003, bufByte Config.env s 0x20007)],
    by decide, test_parameters_admit.1, by decide, rfl, ?_, rfl, rfl⟩
  intro o ho
  have hfb : frameBytes s = 4 := by decide
  rw [hfb]
  interval_cases o <;> simp [bufByte, Memory.read, ibufBase]

/-- Two memories that differ in OBUF alone. -/
theorem test_witness_ProcessReadsOnlyItsInput :
    ∃ t t', exec .process { at250 with inLen := 8 } = .next t ∧
      exec .process { at250 with inLen := 8, mem := [(0x40000, 1)] } = .next t' ∧ t.err = .ok ∧
      ∀ o, o < 8 → bufByte Config.env { at250 with inLen := 8 } (ibufBase + o)
        = bufByte Config.env { at250 with inLen := 8, mem := [(0x40000, 1)] } (ibufBase + o) := by
  obtain ⟨t, h, he, -⟩ := test_process_eight
  refine ⟨t, _, h, rfl, he, ?_⟩
  intro o ho
  interval_cases o <;> rfl

theorem test_witness_StagingDoesNotReachProcess : ∃ t, exec .process firstFrame = .next t := ⟨_, rfl⟩

theorem test_witness_MonoBypassesTheWidener :
    ({ firstFrame with actCh := .mono } : State).actCh = .mono ∧
    ∃ t, exec .process { firstFrame with actCh := .mono } = .next t := ⟨rfl, _, rfl⟩

/-- A line of 5, and no line. -/
theorem test_witness_StereoFramesAdvanceTheCursors :
    (∃ t, exec .process { at250 with inLen := 8 } = .next t ∧ t.err = .ok) ∧
    at250.actCh = .stereo ∧ at250.dlLen ≠ 0 ∧ at250.dlWidx.toNat < at250.dlLen.toNat ∧
    at250.dlRidx.toNat < at250.dlLen.toNat ∧
    (∃ t, exec .process { State.reset with fsm := .configured } = .next t ∧ t.err = .ok) ∧
    State.reset.dlLen = 0 := by
  refine ⟨test_process_eight.imp fun _ h => ⟨h.1, h.2.1⟩, by decide, by decide, by decide, by decide,
    ⟨_, rfl, ?_⟩, by decide⟩
  simp [process, State.reset, State.complete]

/-- The first and the last stage, and the first that does not exist. -/
theorem test_witness_LdcoefEffect :
    (0 : BitVec 3).toNat = (0 : Fin 6).val ∧ (5 : BitVec 3).toNat = (5 : Fin 6).val ∧
    6 ≤ (6 : BitVec 3).toNat := by decide

/-- For each command: a stage, operands that meet the contract, and operands that do not. -/
theorem test_witness_DesignerCommandsEffect :
    let good := withOperands hz100 hz48000 F64.one F64.one
    let bad := withOperands hz24000 hz48000 F64.one 0
    (∀ k ∈ [Kind.ls, .hs, .pk],
      designerOk k (good.operand 0) (good.operand 1) (good.operand 2) (good.operand 3) = true ∧
      designerOk k (bad.operand 0) (bad.operand 1) (bad.operand 2) (bad.operand 3) = false) ∧
    (5 : BitVec 3).toNat = (5 : Fin 6).val ∧ 6 ≤ (6 : BitVec 3).toNat := by decide +kernel

theorem test_witness_UnitGainDesignIsIdentity :
    ∀ k : Kind, (0 : ℝ) < 1 ∧ (1 : ℝ) < 4 / 2 ∧ (k = .pk → (0 : ℝ) < 1) ∧
      ∃ r, Designer.IsTarget k 1 4 1 1 r := by
  intro k
  refine ⟨by norm_num, by norm_num, fun _ => by norm_num, ?_⟩
  cases k <;> exact ⟨⟨_, _, _, _, _⟩, rfl, rfl, rfl, rfl, rfl⟩

theorem test_witness_LifecycleTransitions :
    ∀ w ∈ [(0 : Word), 1, 2, 3, 4, 0x510, 0x511, 0x512, 0x513, 0x613],
      (State.reset.withCommand w).pending = some ⟨w, 0⟩ := fun _ _ => rfl

/-- An illegal word, a PROCESS refused and a CONFIGURE rejected. -/
theorem test_witness_ErrorsWriteOnlyTheirCode :
    (∃ t, step (State.reset.withCommand 5) = .next t ∧ t.err ≠ .ok) ∧
    (∃ t, step (State.reset.withCommand 2) = .next t ∧ t.err ≠ .ok) ∧
    (∃ t, step (({ State.reset with cfgFs := 0 } : State).withCommand 1) = .next t ∧ t.err ≠ .ok) :=
  ⟨⟨_, rfl, by decide⟩, ⟨_, rfl, by decide⟩, ⟨_, rfl, by decide⟩⟩

theorem test_witness_CommandsWriteOnlyTheirOwnState :
    ∀ i ∈ [Instr.nop, .configure, .process, .flush, .reset, .ldcoef 0, .setls 5, .seths 6, .setpk 7],
      ∃ t, exec i at250 = .next t := fun i _ => ⟨_, exec_eq_result i at250⟩

/-- Every invariant holds at reset, and a command completes from there. -/
theorem test_reset_inv :
    State.reset.Inv Config.params ∧ State.reset.FstSnapped ∧ State.reset.DlNoNegZero := by
  refine ⟨⟨by decide, by simp [State.reset], by decide, Nat.zero_le _, by decide, by decide, by decide⟩, ?_, ?_⟩
  · intro i
    have h : State.reset.fstAt i = Hist.zero := by
      simp [State.fstAt, State.reset, Vector.get]
    rw [h]
    exact ⟨.inl rfl, .inl rfl⟩
  · intro v h
    simp [State.reset] at h

theorem test_witness_StepKeepsTheInvariant :
    (State.reset.withCommand 3).Inv Config.params ∧ ∃ t, step (State.reset.withCommand 3) = .next t :=
  ⟨⟨by decide, by simp [State.reset, State.withCommand], by decide, Nat.zero_le _, by decide, by decide, by decide⟩, _, rfl⟩

theorem test_witness_StepKeepsFilterOutputsSnapped :
    (State.reset.withCommand 3).FstSnapped ∧ ∃ t, step (State.reset.withCommand 3) = .next t :=
  ⟨test_reset_inv.2.1, _, rfl⟩

theorem test_witness_StepKeepsTheDelayLineFreeOfNegativeZero :
    (at250.withCommand 3).DlNoNegZero ∧ ∃ t, step (at250.withCommand 3) = .next t := by
  refine ⟨?_, _, rfl⟩
  intro v h
  obtain rfl : v = 0 := by simpa [State.withCommand, at250] using h
  decide

/-- 1.0, -0.0 and the floor itself. -/
theorem test_witness_IdentityStagePassesItsInput :
    at250.coefAt 5 = ⟨F64.one, F64.zero, F64.zero, F64.zero, F64.zero⟩ ∧ at250.fstAt 5 = Hist.zero ∧
    F64.isFinite 0 = true ∧ F64.isFinite F64.one = true ∧ F64.isFinite F64.negZero = true ∧
    F64.isFinite F64.denormFloor = true := by decide +kernel

/-- The least and the greatest finite magnitude, infinity, a NaN. -/
theorem test_witness_DecodingIsExact :
    F32.mag 0x80000001 < F32.infMag ∧ F32.mag 0x7F7FFFFF < F32.infMag ∧
    F32.mag 0xFF800000 = F32.infMag ∧ F32.isNaN 0x7F800001 = true := by decide

/-- Three bytes are no stereo PCM16 frame, four are. -/
theorem test_witness_FrameDecoding :
    let s : State := { at250 with inLen := 3 }
    let u : State := { at250 with inLen := 4 }
    s.inLen.toNat < 0 * 4 + 4 ∧ 0 * 4 + 4 ≤ u.inLen.toNat ∧ u.actCh = .stereo ∧
    ({ u with actCh := .mono } : State).actCh = .mono ∧ u.actEnc = .pcm16 ∧
    ({ u with actEnc := .pcmFloat } : State).actEnc = .pcmFloat := by decide

/-- A NaN, an infinity, the overflow threshold and the value just below it. -/
theorem test_witness_NarrowingIsNearestEven :
    F64.isNaN F64.quietNaN = true ∧ F64.isInf 0xFFF0000000000000 = true ∧
    2 ^ 128 - 2 ^ 103 ≤ |F64.val 0x47EFFFFFF0000000| ∧
    |F64.val 0x47EFFFFFEFFFFFFF| < 2 ^ 128 - 2 ^ 103 ∧ F64.isFinite 0x47EFFFFFEFFFFFFF = true := by
  decide +kernel

/-- A finite pair, a zero sum and difference, a zero divisor of a value and of a zero, infinities of both signs,
a NaN, and the integers at the bound. -/
theorem test_witness_ArithmeticIsNearestEven :
    F64.isFinite F64.one = true ∧ F64.isFinite F64.two = true ∧ F64.val F64.two ≠ 0 ∧
    F64.val F64.negZero + F64.val F64.negZero = 0 ∧ F64.val F64.negZero - F64.val F64.zero = 0 ∧
    F64.val F64.negZero = 0 ∧ F64.isInf 0x7FF0000000000000 = true ∧ F64.isInf 0xFFF0000000000000 = true ∧
    F64.isNaN F64.quietNaN = true ∧ (-2 ^ 53 : Int).natAbs ≤ 2 ^ 53 := by decide +kernel

/-- What IEEE 754 says of the corners (R148, R209, R239 rest on them). -/
theorem test_arithmetic_corners :
    F64.add 7 0x7FF0000000000000 0xFFF0000000000000 = 7 ∧ F64.mul 7 0x7FF0000000000000 F64.zero = 7 ∧
    F64.div 7 F64.zero F64.negZero = 7 ∧ F64.div 7 F64.one F64.negZero = 0xFFF0000000000000 ∧
    F64.sub 7 F64.one F64.one = F64.zero ∧ F64.add 7 F64.negZero F64.negZero = F64.negZero := by
  decide +kernel

theorem test_witness_LagIsBelowTheLength :
    0 < Claims.lengthAt 25 ∧ 0 < Claims.lengthAt 0xFFFFFFFF ∧ (124 : Word).toNat ≤ 124 := by decide +kernel

/-- Frame 0, before the lag, and frame 1, at it. -/
theorem test_witness_DelayLineDelaysByTheLag :
    at250.dlDelay.toNat < at250.dlLen.toNat ∧ 1 < [F64.one, F64.two].length := by decide

theorem test_witness_WidenerFollowsItsRule : State.reset.dlLen = 0 ∧ at250.dlLen ≠ 0 := by decide

/-- A line of zeros, and inputs of which one's double is finite. -/
theorem test_witness_EqualInputsGiveEqualOutputs :
    env.P.Ok ∧ F64.isFinite F64.one = true ∧ F64.one ≠ F64.negZero ∧ (∀ v ∈ at250.dl, v = F64.zero) ∧
    F64.isFinite (F64.add F64.quietNaN F64.one F64.one) = true :=
  ⟨Config.sample_ok, by decide +kernel, by decide, by simp [at250]; rfl, by decide +kernel⟩

/-- The sample parameters with another output gain. -/
def withGain (g : F64) : Params :=
  { Config.sample with tune := { Config.sample.tune with outputGain := g } }

theorem test_withGain_ok (g : F64) (h : F64.isFinite g = true) : (withGain g).Ok :=
  { Config.sample_ok with tune := { Config.sample_ok.tune with outputGain := h } }

/-- A positive, a negative and a zero gain; a gained value that is a NaN and two that are not; two ordered
samples, the two zeros among them. -/
theorem test_witness_LimiterOutputIsBounded :
    (withGain F64.two).Ok ∧ 0 < F64.val F64.two ∧
    (withGain (F64.neg F64.one)).Ok ∧ F64.val (F64.neg F64.one) < 0 ∧
    (withGain F64.zero).Ok ∧ F64.val F64.zero = 0 ∧
    F64.isNaN F64.quietNaN = true ∧ F32.isNaN F32.quietNaN = true ∧
    F64.isNaN (F64.mul F64.quietNaN 0x7FF0000000000000 F64.two) = false ∧
    F64.isNaN (F64.mul F64.quietNaN 0x7FF0000000000000 F64.zero) = true ∧
    F64.isNaN F64.negZero = false ∧ F64.isFinite F64.negZero = true ∧
    F64.le F64.zero F64.negZero = true ∧ F64.le F64.one F64.two = true :=
  ⟨test_withGain_ok _ (by decide +kernel), by decide +kernel, test_withGain_ok _ (by decide +kernel),
    by decide +kernel, test_withGain_ok _ (by decide +kernel), by decide +kernel, by decide +kernel,
    by decide +kernel, by decide +kernel, by decide +kernel, by decide +kernel, by decide +kernel,
    by decide +kernel, by decide +kernel⟩

/-- 95_test_vectors.md section 2.7: the gains 2.0, -1.0 and 0.0. -/
theorem test_limit_gains :
    limitWith (withGain F64.two) .hard 0 0 0x3FD0000000000000 = 0x3F000000 ∧
    limitWith (withGain (F64.neg F64.one)) .hard 0 0 0x3FE0000000000000 = 0xBF000000 ∧
    limitWith (withGain F64.zero) .hard 0 0 0xC008000000000000 = 0x80000000 := by decide +kernel

end Sys2Proof.Tests
end

section
/-! Rounding to nearest even, for every format. The patterns of a format are a strictly increasing grid of
magnitudes (`gridUnits`), and `roundUnits` answers the grid point whose two midpoints enclose the exact
magnitude (`NearestPattern`). Which point that is rests on comparisons with midpoints alone, so an inexact
`m` that compares with them as the exact value does (`SameComparisons`) rounds to the same pattern. -/

namespace Sys2Proof.Rounding

/-- The magnitude, in units of the least subnormal, of the finite pattern `k` of a format that stores `f`
significand bits: `F64.units` for `f = 52` and `F32.units` for `f = 23`. -/
def gridUnits (f k : Nat) : Nat :=
  let e := k / 2 ^ f
  let t := k % 2 ^ f
  if e = 0 then t else (2 ^ f + t) * 2 ^ (e - 1)

/-- `r` is the pattern nearest to `m / 2^d` units: twice that lies between the sums of `r`'s grid point with
its two neighbours, and strictly so where `r` is odd. -/
def NearestPattern (f d m r : Nat) : Prop :=
  (∀ k, k + 1 = r → (gridUnits f k + gridUnits f r) * 2 ^ d + r % 2 ≤ 2 * m) ∧
  2 * m + r % 2 ≤ (gridUnits f r + gridUnits f (r + 1)) * 2 ^ d

/-- `m / 2^d` compares with every half of a whole number as `x` does. -/
def SameComparisons (d m : Nat) (x : ℚ) : Prop :=
  ∀ n : Nat, (n * 2 ^ d ≤ 2 * m ↔ (n : ℚ) ≤ 2 * x) ∧ (2 * m ≤ n * 2 ^ d ↔ 2 * x ≤ n)

/-! ### The grid -/

theorem gridUnits_of_lt {f k : Nat} (h : k < 2 ^ f) : gridUnits f k = k := by
  simp [gridUnits, Nat.div_eq_of_lt h, Nat.mod_eq_of_lt h]

theorem gridUnits_normal {f t : Nat} (e : Nat) (ht : t < 2 ^ f) :
    gridUnits f ((e + 1) * 2 ^ f + t) = (2 ^ f + t) * 2 ^ e := by
  have hdiv : ((e + 1) * 2 ^ f + t) / 2 ^ f = e + 1 := by
    rw [Nat.add_comm, Nat.add_mul_div_right _ _ (by positivity), Nat.div_eq_of_lt ht, Nat.zero_add]
  have hmod : ((e + 1) * 2 ^ f + t) % 2 ^ f = t := by
    rw [Nat.mul_add_mod_self_right, Nat.mod_eq_of_lt ht]
  simp [gridUnits, hdiv, hmod]

/-- A significand `q` at exponent `j`; `q = 2^(f+1)` is the first pattern of the next binade. -/
theorem gridUnits_scale {f j q : Nat} (hq : q ≤ 2 ^ (f + 1)) (hj : j = 0 ∨ 2 ^ f ≤ q) :
    gridUnits f (j * 2 ^ f + q) = q * 2 ^ j := by
  rw [pow_succ] at hq
  rcases Nat.lt_or_ge q (2 ^ f) with h | h
  · obtain rfl : j = 0 := by omega
    simp [gridUnits_of_lt h]
  obtain ⟨t, rfl⟩ := Nat.exists_eq_add_of_le h
  rcases Nat.lt_or_ge t (2 ^ f) with ht | ht
  · rw [← gridUnits_normal j ht]
    congr 1; ring
  · obtain rfl : t = 2 ^ f := by omega
    have := gridUnits_normal (j + 1) (show 0 < 2 ^ f by positivity)
    rw [show j * 2 ^ f + (2 ^ f + 2 ^ f) = (j + 1 + 1) * 2 ^ f + 0 by ring, this]
    ring

/-- Every pattern is a significand at an exponent, the significand below `2^(f+1)`. -/
theorem exists_scale (f k : Nat) :
    ∃ j q, k = j * 2 ^ f + q ∧ q < 2 ^ (f + 1) ∧ (j = 0 ∨ 2 ^ f ≤ q) := by
  have hmod := Nat.mod_lt k (show 0 < 2 ^ f by positivity)
  have hk := Nat.div_add_mod' k (2 ^ f)
  rcases hd : k / 2 ^ f with _ | j
  · exact ⟨0, k % 2 ^ f, by rw [hd] at hk; omega, by rw [pow_succ]; omega, .inl rfl⟩
  · refine ⟨j, 2 ^ f + k % 2 ^ f, ?_, by rw [pow_succ]; omega, .inr (by omega)⟩
    rw [hd, Nat.succ_mul] at hk
    omega

theorem le_gridUnits_succ {f j q : Nat} (hq : q ≤ 2 ^ (f + 1)) (hj : j = 0 ∨ 2 ^ f ≤ q) :
    (q + 1) * 2 ^ j ≤ gridUnits f (j * 2 ^ f + q + 1) := by
  rcases hq.lt_or_eq with h | rfl
  · exact (gridUnits_scale (Nat.succ_le_of_lt h) (by omega)).ge
  · have hpos : 1 ≤ 2 ^ f := Nat.one_le_two_pow
    have hnext : j * 2 ^ f + 2 ^ (f + 1) + 1 = (j + 1) * 2 ^ f + (2 ^ f + 1) := by ring
    rw [hnext, gridUnits_scale (by rw [pow_succ]; omega) (.inr (by omega)), pow_succ, pow_succ]
    calc (2 ^ f * 2 + 1) * 2 ^ j ≤ (2 ^ f * 2 + 2) * 2 ^ j := Nat.mul_le_mul_right _ (by omega)
      _ = (2 ^ f + 1) * (2 ^ j * 2) := by ring

theorem gridUnits_strictMono (f : Nat) : StrictMono (gridUnits f) := by
  refine strictMono_nat_of_lt_succ fun k => ?_
  obtain ⟨j, q, rfl, hq, hj⟩ := exists_scale f k
  calc gridUnits f (j * 2 ^ f + q) = q * 2 ^ j := gridUnits_scale hq.le hj
    _ < (q + 1) * 2 ^ j := Nat.mul_lt_mul_of_pos_right (by omega) (by positivity)
    _ ≤ gridUnits f (j * 2 ^ f + q + 1) := le_gridUnits_succ hq.le hj

@[simp] theorem gridUnits_zero (f : Nat) : gridUnits f 0 = 0 := gridUnits_of_lt (by positivity)

@[simp] theorem gridUnits_eq_zero {f k : Nat} : gridUnits f k = 0 ↔ k = 0 := by
  simpa using (gridUnits_strictMono f).injective.eq_iff (a := k) (b := 0)

/-- Every integer of at most `f + 1` significant bits is a grid point. -/
theorem exists_gridUnits_eq (f j q : Nat) (hq : q ≤ 2 ^ (f + 1)) : ∃ k, gridUnits f k = q * 2 ^ j := by
  induction j generalizing q with
  | zero => exact ⟨0 * 2 ^ f + q, gridUnits_scale hq (.inl rfl)⟩
  | succ j ih =>
    rcases Nat.lt_or_ge q (2 ^ f) with h | h
    · obtain ⟨k, hk⟩ := ih (2 * q) (by rw [pow_succ]; omega)
      exact ⟨k, by rw [hk, pow_succ]; ring⟩
    · exact ⟨(j + 1) * 2 ^ f + q, gridUnits_scale hq (.inr h)⟩

/-! ### What `roundUnits` answers -/

/-- `rne m sh` is within half of `m / 2^sh`, and strictly so where it is odd. -/
theorem rne_bounds (m sh : Nat) :
    2 * m + rne m sh % 2 ≤ (2 * rne m sh + 1) * 2 ^ sh ∧
    2 * rne m sh * 2 ^ sh + rne m sh % 2 ≤ 2 * m + 2 ^ sh := by
  have hrem := Nat.mod_lt m (show 0 < 2 ^ sh by positivity)
  have hm := Nat.div_add_mod' m (2 ^ sh)
  simp only [rne]
  generalize m / 2 ^ sh = a at *
  generalize m % 2 ^ sh = b at *
  generalize 2 ^ sh = c at *
  split
  · rw [show (2 * (a + 1) + 1) * c = 2 * (a * c) + 3 * c by ring,
      show 2 * (a + 1) * c = 2 * (a * c) + 2 * c by ring]
    omega
  · rw [show (2 * a + 1) * c = 2 * (a * c) + c by ring, show 2 * a * c = 2 * (a * c) by ring]
    omega

theorem rne_le {f m sh : Nat} (hm : m < 2 ^ f * 2 ^ sh) : rne m sh ≤ 2 ^ f := by
  have hc : 0 < 2 ^ sh := by positivity
  have := (rne_bounds m sh).2
  by_contra! h
  have : (2 ^ f + 1) * 2 ^ sh ≤ rne m sh * 2 ^ sh := Nat.mul_le_mul_right _ h
  grind

theorem le_rne {f m sh : Nat} (hm : 2 ^ f * 2 ^ sh ≤ m) : 2 ^ f ≤ rne m sh := by
  have hc : 0 < 2 ^ sh := by positivity
  have := (rne_bounds m sh).1
  by_contra! h
  have : (rne m sh + 1) * 2 ^ sh ≤ 2 ^ f * 2 ^ sh := Nat.mul_le_mul_right _ h
  grind

/-- A magnitude of the binade `j`, rounded to that binade's step. -/
theorem nearestPattern_rne {f j d m : Nat} (hf : 1 ≤ f) (hm : m < 2 ^ (f + 1) * 2 ^ (j + d))
    (hj : j = 0 ∨ 2 ^ f * 2 ^ (j + d) ≤ m) :
    NearestPattern f d m (j * 2 ^ f + rne m (j + d)) := by
  have hq := rne_le hm
  have hj' : j = 0 ∨ 2 ^ f ≤ rne m (j + d) := hj.imp_right le_rne
  obtain ⟨hup, hlow⟩ := rne_bounds m (j + d)
  generalize rne m (j + d) = q at *
  rw [pow_add] at hup hlow
  have heven : 2 ^ f % 2 = 0 := by rw [← Nat.dvd_iff_mod_eq_zero]; exact dvd_pow_self 2 (by omega)
  have hpar : (j * 2 ^ f + q) % 2 = q % 2 := by simp [Nat.add_mod, Nat.mul_mod, heven]
  rw [NearestPattern, hpar, gridUnits_scale hq hj']
  constructor
  · intro k hk
    by_cases h : j = 0 ∨ 2 ^ f < q
    · have hq0 : q ≠ 0 := by
        rintro rfl
        obtain rfl : j = 0 := by omega
        omega
      obtain ⟨p, rfl⟩ := Nat.exists_eq_succ_of_ne_zero hq0
      obtain rfl : k = j * 2 ^ f + p := by omega
      rw [gridUnits_scale (by omega) (by omega)]
      linarith [hlow]
    · obtain rfl : q = 2 ^ f := by omega
      have hlt : gridUnits f k < 2 ^ f * 2 ^ j := by
        rw [← gridUnits_scale hq hj', ← hk]
        exact gridUnits_strictMono f k.lt_succ_self
      calc (gridUnits f k + 2 ^ f * 2 ^ j) * 2 ^ d + 2 ^ f % 2
          ≤ (2 ^ f * 2 ^ j + 2 ^ f * 2 ^ j) * 2 ^ d + 2 ^ f % 2 := by gcongr
        _ = 2 * (2 ^ f * 2 ^ (j + d)) := by rw [heven]; ring
        _ ≤ 2 * m := Nat.mul_le_mul_left _ (by omega)
  · calc 2 * m + q % 2 ≤ (q * 2 ^ j + (q + 1) * 2 ^ j) * 2 ^ d := by linarith [hup]
      _ ≤ (q * 2 ^ j + gridUnits f (j * 2 ^ f + q + 1)) * 2 ^ d := by
        gcongr
        exact le_gridUnits_succ hq hj'

/-- `roundUnits` answers the nearest pattern, cut at that of infinity. -/
theorem exists_nearestPattern_roundUnits {f : Nat} (hf : 1 ≤ f) (d inf m : Nat) :
    ∃ r, roundUnits (f + 1) d inf m = min inf r ∧ NearestPattern f d m r := by
  have hupper : m < 2 ^ (m.log2 + 1) := Nat.lt_log2_self
  simp only [roundUnits, Nat.add_sub_cancel, Nat.add_sub_add_right]
  refine ⟨_, rfl, ?_⟩
  obtain ⟨j, hj⟩ := Nat.exists_eq_add_of_le' (Nat.le_max_right (m.log2 - f) d)
  rw [hj, Nat.add_sub_cancel]
  refine nearestPattern_rne hf ?_ ?_
  · rw [← pow_add]
    exact hupper.trans_le (Nat.pow_le_pow_right (by decide) (by omega))
  · refine or_iff_not_imp_left.2 fun hj0 => ?_
    have hm : m ≠ 0 := by rintro rfl; simp at hj; omega
    rw [← pow_add, show f + (j + d) = m.log2 by omega]
    exact Nat.log2_self_le hm

/-! ### Nearest patterns and exact values -/

section
variable {f d m r : Nat} {x : ℚ}

theorem SameComparisons.nonneg (hx : SameComparisons d m x) : 0 ≤ x := by
  have := (hx 0).1.1 (by simp)
  push_cast at this
  linarith

theorem sameComparisons_div (d m : Nat) : SameComparisons d m ((m : ℚ) / 2 ^ d) := by
  intro n
  rw [mul_div_assoc', le_div_iff₀ (by positivity), div_le_iff₀ (by positivity)]
  norm_cast

/-- A quotient cut to a whole number, with one bit more that says whether anything was left over, compares
with even numbers as twice the exact quotient does. -/
theorem sticky_compare {n b : Nat} (hb : 0 < b) (k : Nat) :
    (2 * k ≤ 2 * (n / b) + (if n % b = 0 then 0 else 1) ↔ k * b ≤ n) ∧
    (2 * (n / b) + (if n % b = 0 then 0 else 1) ≤ 2 * k ↔ n ≤ k * b) := by
  have hle : k ≤ n / b ↔ k * b ≤ n := Nat.le_div_iff_mul_le hb
  have hlt : n / b < k ↔ n < k * b := Nat.div_lt_iff_lt_mul hb
  have hexact : n / b = k ∧ n % b = 0 ↔ n = k * b := by
    constructor
    · rintro ⟨rfl, h⟩
      exact (Nat.div_mul_cancel (Nat.dvd_of_mod_eq_zero h)).symm
    · rintro rfl
      simp [hb]
  split <;> omega

theorem sameComparisons_sticky {n b : Nat} (d : Nat) (hb : 0 < b) :
    SameComparisons (d + 2) (2 * (n / b) + if n % b = 0 then 0 else 1) ((n : ℚ) / b / 2 ^ (d + 1)) := by
  intro k
  have hb' : (0 : ℚ) < b := by exact_mod_cast hb
  have htwice : 2 * ((n : ℚ) / b / 2 ^ (d + 1)) = n / (2 ^ d * b) := by
    rw [pow_succ]; field_simp
  have hscale : k * 2 ^ (d + 2) = 2 * (2 * (k * 2 ^ d)) := by ring
  obtain ⟨hlow, hup⟩ := sticky_compare (n := n) hb (k * 2 ^ d)
  rw [htwice, hscale, Nat.mul_le_mul_left_iff (by decide), Nat.mul_le_mul_left_iff (by decide), hlow, hup,
    le_div_iff₀ (by positivity), div_le_iff₀ (by positivity), ← mul_assoc]
  norm_cast

/-- Twice the exact value lies below the sum of the nearest grid point and the next. -/
theorem NearestPattern.exact_le (h : NearestPattern f d m r) (hx : SameComparisons d m x) :
    2 * x ≤ gridUnits f r + gridUnits f (r + 1) ∧
    (r % 2 = 1 → 2 * x < gridUnits f r + gridUnits f (r + 1)) := by
  have hn := hx (gridUnits f r + gridUnits f (r + 1))
  push_cast at hn
  refine ⟨hn.2.1 (by have := h.2; omega), fun hodd => ?_⟩
  rw [← not_le, ← hn.1]
  have := h.2
  omega

/-- Twice the exact value lies above the sum of the nearest grid point and the one before. -/
theorem NearestPattern.le_exact {k : Nat} (h : NearestPattern f d m (k + 1)) (hx : SameComparisons d m x) :
    (gridUnits f k + gridUnits f (k + 1) : ℚ) ≤ 2 * x ∧
    ((k + 1) % 2 = 1 → (gridUnits f k + gridUnits f (k + 1) : ℚ) < 2 * x) := by
  have hn := hx (gridUnits f k + gridUnits f (k + 1))
  push_cast at hn
  have := h.1 k rfl
  refine ⟨hn.1.1 (by omega), fun hodd => ?_⟩
  rw [← not_le, ← hn.2]
  omega

theorem gridUnits_cast_le {k n : Nat} (h : k ≤ n) : (gridUnits f k : ℚ) ≤ gridUnits f n := by
  exact_mod_cast (gridUnits_strictMono f).monotone h

theorem gridUnits_cast_lt {k n : Nat} (h : k < n) : (gridUnits f k : ℚ) < gridUnits f n := by
  exact_mod_cast gridUnits_strictMono f h

/-- No grid point is nearer to the exact value, and one equally near leaves an even pattern. -/
theorem NearestPattern.closest (h : NearestPattern f d m r) (hx : SameComparisons d m x) (k : Nat) :
    |(gridUnits f r : ℚ) - x| < |gridUnits f k - x| ∨
    (|(gridUnits f r : ℚ) - x| = |gridUnits f k - x| ∧ (k = r ∨ r % 2 = 0)) := by
  rcases lt_trichotomy k r with hk | rfl | hk
  · obtain ⟨p, rfl⟩ := Nat.exists_eq_succ_of_ne_zero (Nat.ne_zero_of_lt hk)
    obtain ⟨hle, hlt⟩ := h.le_exact hx
    have hkp : (gridUnits f k : ℚ) ≤ gridUnits f p := gridUnits_cast_le (by omega)
    have hkr : (gridUnits f k : ℚ) < gridUnits f (p + 1) := gridUnits_cast_lt hk
    rw [abs_of_nonpos (by linarith : (gridUnits f k : ℚ) - x ≤ 0)]
    rcases Nat.mod_two_eq_zero_or_one (p + 1) with he | ho
    · exact (lt_or_eq_of_le (abs_le.2 ⟨by linarith, by linarith⟩)).imp_right fun e => ⟨e, .inr he⟩
    · have := hlt ho
      exact .inl (abs_lt.2 ⟨by linarith, by linarith⟩)
  · exact .inr ⟨rfl, .inl rfl⟩
  · obtain ⟨hle, hlt⟩ := h.exact_le hx
    have hkp : (gridUnits f (r + 1) : ℚ) ≤ gridUnits f k := gridUnits_cast_le hk
    have hkr : (gridUnits f r : ℚ) < gridUnits f k := gridUnits_cast_lt hk
    rw [abs_of_nonneg (by linarith : 0 ≤ (gridUnits f k : ℚ) - x)]
    rcases Nat.mod_two_eq_zero_or_one r with he | ho
    · exact (lt_or_eq_of_le (abs_le.2 ⟨by linarith, by linarith⟩)).imp_right fun e => ⟨e, .inr he⟩
    · have := hlt ho
      exact .inl (abs_lt.2 ⟨by linarith, by linarith⟩)

/-- The nearest pattern is at most the odd pattern `t` exactly where the exact value is below the midpoint
above `t`: the overflow threshold, for the largest finite pattern `t`. -/
theorem NearestPattern.le_iff_of_odd (h : NearestPattern f d m r) (hx : SameComparisons d m x) {t : Nat}
    (ht : t % 2 = 1) : r ≤ t ↔ 2 * x < gridUnits f t + gridUnits f (t + 1) := by
  constructor
  · intro hr
    obtain ⟨hle, hlt⟩ := h.exact_le hx
    rcases hr.lt_or_eq with hr | rfl
    · have h1 : (gridUnits f r : ℚ) < gridUnits f t := gridUnits_cast_lt hr
      have h2 : (gridUnits f (r + 1) : ℚ) ≤ gridUnits f (t + 1) := gridUnits_cast_le (by omega)
      linarith
    · exact hlt ht
  · intro hlt
    by_contra! hr
    obtain ⟨p, rfl⟩ := Nat.exists_eq_succ_of_ne_zero (Nat.ne_zero_of_lt hr)
    have h1 : (gridUnits f t : ℚ) ≤ gridUnits f p := gridUnits_cast_le (by omega)
    have h2 : (gridUnits f (t + 1) : ℚ) ≤ gridUnits f (p + 1) := gridUnits_cast_le (by omega)
    linarith [(h.le_exact hx).1]

end

/-! ### Signs -/

/-- `x` with the sign bit `s`. -/
def signed (s : Bool) (x : ℚ) : ℚ := if s then -x else x

@[simp] theorem signed_zero (s : Bool) : signed s 0 = 0 := by simp [signed]

@[simp] theorem signed_eq_zero {s : Bool} {x : ℚ} : signed s x = 0 ↔ x = 0 := by
  cases s <;> simp [signed]

@[simp] theorem abs_signed (s : Bool) (x : ℚ) : |signed s x| = |x| := by cases s <;> simp [signed]

theorem signed_mul (s t : Bool) (x y : ℚ) : signed s x * signed t y = signed (s != t) (x * y) := by
  cases s <;> cases t <;> simp [signed]

theorem signed_div (s t : Bool) (x y : ℚ) : signed s x / signed t y = signed (s != t) (x / y) := by
  cases s <;> cases t <;> simp [signed, neg_div, div_neg]

theorem signed_div_right (s : Bool) (x y : ℚ) : signed s x / y = signed s (x / y) := by
  cases s <;> simp [signed, neg_div]

theorem signed_neg_iff {s : Bool} {x : ℚ} (hx : 0 < x) : signed s x < 0 ↔ s = true := by
  cases s <;> simp [signed, hx, hx.le]

@[simp] theorem abs_signed_sub_signed (s : Bool) (x y : ℚ) : |signed s x - signed s y| = |x - y| := by
  cases s
  · rfl
  · rw [abs_sub_comm x y]
    congr 1
    simp only [signed, if_true]
    ring

@[simp] theorem abs_signed_not_sub_signed (s : Bool) (x y : ℚ) :
    |signed (!s) x - signed s y| = |x + y| := by
  cases s
  · rw [← abs_neg (x + y), neg_add']
    rfl
  · simp [signed]

theorem signed_decide_natAbs (z : Int) : signed (decide (z < 0)) (z.natAbs : ℚ) = z := by
  rw [Nat.cast_natAbs]
  by_cases h : z < 0
  · simp [signed, h, abs_of_neg h]
  · simp [signed, h, abs_of_nonneg (not_lt.1 h)]

/-- `NearestPattern.closest` over the values of both signs. -/
theorem NearestPattern.closest_signed {f d m r : Nat} {x : ℚ} (h : NearestPattern f d m r)
    (hx : SameComparisons d m x) (s t : Bool) (k : Nat) :
    |signed s (gridUnits f r) - signed s x| < |signed t (gridUnits f k) - signed s x| ∨
    (|signed s (gridUnits f r) - signed s x| = |signed t (gridUnits f k) - signed s x| ∧
      (signed t (gridUnits f k) = signed s (gridUnits f r) ∨ r % 2 = 0)) := by
  by_cases hsame : signed t (gridUnits f k) = signed s (gridUnits f k)
  · rw [hsame, abs_signed_sub_signed, abs_signed_sub_signed]
    refine (h.closest hx k).imp_right (And.imp_right (Or.imp_left ?_))
    rintro rfl
    rfl
  -- Across zero: `0` is at most as near as `r`, and `k` is farther from the exact value than `0` is.
  · obtain rfl : t = !s := by
      rw [Bool.eq_not]
      rintro rfl
      exact hsame rfl
    have hk : (0 : ℚ) < gridUnits f k := by
      refine (Nat.cast_nonneg _).lt_of_ne fun h0 => hsame ?_
      rw [← h0, signed_zero, signed_zero]
    have hx0 := hx.nonneg
    have hr : |(gridUnits f r : ℚ) - x| ≤ x := by
      have h0 : |(gridUnits f 0 : ℚ) - x| = x := by simp [abs_of_nonneg hx0]
      rcases h.closest hx 0 with hlt | ⟨heq, -⟩
      · exact hlt.le.trans h0.le
      · exact heq.le.trans h0.le
    rw [abs_signed_sub_signed, abs_signed_not_sub_signed, abs_of_pos (by linarith : 0 < gridUnits f k + x)]
    exact .inl (by linarith)

end Sys2Proof.Rounding
end

section
/-! Binary64 values: the exact value of a pattern, the classes of patterns, and what rounding an exact
magnitude gives (R12). -/

namespace Sys2Proof.F64

open Rounding

/-- The pattern of the largest finite magnitude. -/
def maxFiniteMag : Nat := 0x7FEFFFFFFFFFFFFF

/-! ### The exact value -/

theorem units_eq_gridUnits (x : F64) : units x = gridUnits 52 (mag x) := rfl

@[simp] theorem units_eq_zero {x : F64} : units x = 0 ↔ mag x = 0 := by
  rw [units_eq_gridUnits, gridUnits_eq_zero]

theorem val_eq_signed (x : F64) : val x = signed (sign x) (units x) / 2 ^ 1074 := by
  rw [val, signedUnits, signed]
  split <;> simp

@[simp] theorem val_eq_zero {x : F64} : val x = 0 ↔ mag x = 0 := by
  have : (2 : ℚ) ^ 1074 ≠ 0 := by positivity
  rw [val_eq_signed, div_eq_zero_iff, signed_eq_zero, Nat.cast_eq_zero, units_eq_zero]
  simp [this]

@[simp] theorem val_neg (x : F64) : val (neg x) = -val x := by
  have : units (neg x) = units x := by rw [units_eq_gridUnits, mag_neg, units_eq_gridUnits]
  rw [val_eq_signed, val_eq_signed, this, sign_neg, ← neg_div]
  cases sign x <;> simp [signed]

theorem val_pack {m : Nat} (s : Bool) (h : m < 2 ^ 63) :
    val (pack s m) = signed s (gridUnits 52 m) / 2 ^ 1074 := by
  rw [val_eq_signed, units_eq_gridUnits, mag_pack s h, sign_pack s h]

/-! ### Classes of patterns -/

theorem isFinite_iff {x : F64} : isFinite x = true ↔ mag x < infMag := decide_eq_true_iff

theorem isInf_iff {x : F64} : isInf x = true ↔ mag x = infMag := decide_eq_true_iff

theorem isNaN_iff {x : F64} : isNaN x = true ↔ infMag < mag x := decide_eq_true_iff

@[simp] theorem isFinite_neg (x : F64) : isFinite (neg x) = isFinite x := by simp [isFinite]

@[simp] theorem isInf_neg (x : F64) : isInf (neg x) = isInf x := by simp [isInf]

theorem isNaN_of_isFinite {x : F64} (h : isFinite x = true) : isNaN x = false := by
  rw [isFinite_iff] at h
  simp [isNaN, h.le]

theorem isInf_of_isFinite {x : F64} (h : isFinite x = true) : isInf x = false := by
  rw [isFinite_iff] at h
  simp [isInf, h.ne]

theorem isNaN_of_isInf {x : F64} (h : isInf x = true) : isNaN x = false := by
  rw [isInf_iff] at h
  simp [isNaN, h]

theorem pack_sign_mag (x : F64) : pack (sign x) (mag x) = x :=
  ext_sign_mag (sign_pack _ (mag_lt x)) (mag_pack _ (mag_lt x))

/-- An infinity is its sign. -/
theorem eq_pack_infMag {x : F64} (h : isInf x = true) : x = pack (sign x) infMag := by
  rw [← isInf_iff.1 h, pack_sign_mag]

theorem eq_negZero_iff {x : F64} : x = negZero ↔ sign x = true ∧ mag x = 0 :=
  ⟨by rintro rfl; decide, fun ⟨hs, hm⟩ => ext_sign_mag hs hm⟩

theorem eq_zero_iff {x : F64} : x = zero ↔ sign x = false ∧ mag x = 0 :=
  ⟨by rintro rfl; decide, fun ⟨hs, hm⟩ => ext_sign_mag hs hm⟩

theorem neg_eq_negZero_iff {x : F64} : neg x = negZero ↔ x = zero := by
  simp [eq_negZero_iff, eq_zero_iff]

/-! ### Rounding -/

/-- The midpoint above the largest finite value is `2^1024 - 2^970`. -/
theorem gridUnits_overflow :
    (gridUnits 52 maxFiniteMag + gridUnits 52 (maxFiniteMag + 1) : ℚ)
      = 2 * ((2 ^ 1024 - 2 ^ 970) * 2 ^ 1074) := by
  have hmax : maxFiniteMag = 2045 * 2 ^ 52 + (2 ^ 53 - 1) := by decide
  have hinf : maxFiniteMag + 1 = 2045 * 2 ^ 52 + 2 ^ 53 := by decide
  have h2045 : (2 : ℚ) ^ 2045 = 2 * 2 ^ 970 * 2 ^ 1074 := by
    rw [← pow_succ', ← pow_add]
  have h1024 : (2 : ℚ) ^ 1024 = 2 ^ 54 * 2 ^ 970 := by rw [← pow_add]
  rw [hinf, hmax, gridUnits_scale (by decide) (.inr (by decide)), gridUnits_scale le_rfl (.inr (by decide)),
    Nat.cast_mul, Nat.cast_mul, Nat.cast_pow 2 2045, Nat.cast_ofNat, h2045, h1024]
  generalize (2 : ℚ) ^ 970 = a
  generalize (2 : ℚ) ^ 1074 = b
  norm_num
  ring

theorem overflow_pos : (0 : ℚ) < 2 ^ 1024 - 2 ^ 970 :=
  sub_pos.2 (pow_lt_pow_right₀ one_lt_two (by decide))

theorem abs_div_sub_div {c : ℚ} (hc : 0 < c) (a b : ℚ) : |a / c - b / c| = |a - b| / c := by
  rw [← sub_div, abs_div, abs_of_pos hc]

section
variable {d m r : Nat} {x : ℚ} (s : Bool)

theorem le_maxFiniteMag_iff (hnear : NearestPattern 52 d m r) (hx : SameComparisons d m x) :
    r ≤ maxFiniteMag ↔ |signed s x / 2 ^ 1074| < 2 ^ 1024 - 2 ^ 970 := by
  have hunit : (0 : ℚ) < 2 ^ 1074 := by positivity
  rw [hnear.le_iff_of_odd hx (by decide), gridUnits_overflow, abs_div, abs_signed,
    abs_of_nonneg hx.nonneg, abs_of_pos hunit, div_lt_iff₀ hunit, mul_lt_mul_iff_right₀ two_pos]

theorem nearestEven64_pack (hnear : NearestPattern 52 d m r) (hx : SameComparisons d m x)
    (hr : r < infMag) : Claims.NearestEven64 (signed s x / 2 ^ 1074) (pack s r) := by
  have hunit : (0 : ℚ) < 2 ^ 1074 := by positivity
  have hr63 := hr.trans infMag_lt
  refine ⟨by rwa [isFinite_iff, mag_pack s hr63], fun c _ => ?_⟩
  rw [val_pack s hr63, mag_pack s hr63, val_eq_signed c, abs_div_sub_div hunit, abs_div_sub_div hunit,
    div_lt_div_iff_of_pos_right hunit, div_left_inj' hunit.ne', div_left_inj' hunit.ne']
  exact hnear.closest_signed hx s (sign c) (mag c)

/-- Rounding a magnitude that compares as the exact one does gives the binary64 result (R12). -/
theorem rounds64_pack (hx : SameComparisons d m x) :
    Claims.Rounds64 (signed s x / 2 ^ 1074) (pack s (roundMag d m)) := by
  obtain ⟨r, hround, hnear⟩ : ∃ r, roundMag d m = min infMag r ∧ NearestPattern 52 d m r :=
    exists_nearestPattern_roundUnits (by decide) d infMag m
  have hfinite := le_maxFiniteMag_iff s hnear hx
  unfold Claims.Rounds64
  split
  case isTrue h =>
    have hr : r < infMag := Nat.lt_succ_of_le (hfinite.2 h)
    rw [hround, min_eq_right hr.le]
    exact nearestEven64_pack s hnear hx hr
  case isFalse h =>
    have hle : infMag ≤ r := Nat.lt_of_not_le (mt hfinite.1 h)
    have hx0 : 0 < x := by
      refine hx.nonneg.lt_of_ne ?_
      rintro rfl
      exact h (by rw [signed_zero, zero_div, abs_zero]; exact overflow_pos)
    have hsign : decide (signed s x / 2 ^ 1074 < 0) = s := by
      rw [Bool.eq_iff_iff, decide_eq_true_iff, div_lt_iff₀ (by positivity), zero_mul, signed_neg_iff hx0]
    rw [hround, min_eq_left hle, hsign]

end

theorem abs_val_lt_of_isFinite {c : F64} (hc : isFinite c = true) : |val c| < 2 ^ 1024 - 2 ^ 970 := by
  have hunit : (0 : ℚ) < 2 ^ 1074 := by positivity
  have hle : (gridUnits 52 (mag c) : ℚ) ≤ gridUnits 52 maxFiniteMag :=
    gridUnits_cast_le (Nat.le_of_lt_succ (isFinite_iff.1 hc))
  have hlt : (gridUnits 52 maxFiniteMag : ℚ) < gridUnits 52 (maxFiniteMag + 1) :=
    gridUnits_cast_lt (Nat.lt_succ_self _)
  rw [val_eq_signed, abs_div, abs_signed, Nat.abs_cast, abs_of_pos hunit, div_lt_iff₀ hunit,
    units_eq_gridUnits, ← mul_lt_mul_iff_right₀ two_pos, ← gridUnits_overflow]
  linarith

/-- An operation whose exact result is a binary64 value gives that value. -/
theorem eq_val_of_rounds64 {r c : F64} (hc : isFinite c = true) (h : Claims.Rounds64 (val c) r) :
    isFinite r = true ∧ val r = val c := by
  rw [Claims.Rounds64, if_pos (abs_val_lt_of_isFinite hc)] at h
  obtain ⟨hr, hnear⟩ := h
  have hle : |val r - val c| ≤ |val c - val c| := (hnear c hc).elim le_of_lt fun h => h.1.le
  rw [sub_self, abs_zero, abs_nonpos_iff, sub_eq_zero] at hle
  exact ⟨hr, hle⟩

end Sys2Proof.F64
end

section
/-! The four binary64 operations, the ordered comparison and the conversions from integers, case by case, and
the obligation on R12 assembled from them. -/

namespace Sys2Proof.F64

open Rounding

/-! ### Each operation on finite operands -/

section
variable {a b : F64} (q : F64)

theorem add_of_isFinite (ha : isFinite a = true) (hb : isFinite b = true) :
    add q a b =
      pack (if signedUnits a + signedUnits b = 0 then sign a && sign b
        else decide (signedUnits a + signedUnits b < 0))
        (roundMag 0 (signedUnits a + signedUnits b).natAbs) := by
  simp [add, isNaN_of_isFinite, isInf_of_isFinite, ha, hb]

theorem mul_of_isFinite (ha : isFinite a = true) (hb : isFinite b = true) :
    mul q a b = pack (sign a != sign b) (roundMag 1074 (units a * units b)) := by
  simp [mul, isNaN_of_isFinite, isInf_of_isFinite, ha, hb]

theorem div_of_isFinite (ha : isFinite a = true) (hb : isFinite b = true) (h0 : mag b ≠ 0) :
    div q a b = pack (sign a != sign b) (roundMag 1227 (2 * (units a * 2 ^ 2300 / units b) +
      if units a * 2 ^ 2300 % units b = 0 then 0 else 1)) := by
  simp [-Nat.reducePow, div, isNaN_of_isFinite, isInf_of_isFinite, ha, hb, h0]

theorem div_of_isFinite_of_zero (ha : isFinite a = true) (hb : isFinite b = true) (h0 : mag b = 0) :
    div q a b = if mag a = 0 then q else pack (sign a != sign b) infMag := by
  simp [div, isNaN_of_isFinite, isInf_of_isFinite, ha, hb, h0]

end

/-! ### Addition and subtraction -/

theorem val_add_val (a b : F64) : val a + val b = ((signedUnits a + signedUnits b : Int) : ℚ) / 2 ^ 1074 := by
  rw [val, val, ← add_div, Int.cast_add]

theorem val_add_val_eq_zero {a b : F64} : val a + val b = 0 ↔ signedUnits a + signedUnits b = 0 := by
  rw [val_add_val, div_eq_zero_iff, Int.cast_eq_zero, or_iff_left (by positivity)]

section
variable {a b : F64} (q : F64)

theorem rounds64_add (ha : isFinite a = true) (hb : isFinite b = true) :
    Claims.Rounds64 (val a + val b) (add q a b) := by
  rw [add_of_isFinite q ha hb, val_add_val]
  generalize signedUnits a + signedUnits b = z
  have hexact := sameComparisons_div 0 z.natAbs
  rw [pow_zero, div_one] at hexact
  by_cases hz : z = 0
  · subst hz
    simpa using rounds64_pack (sign a && sign b) hexact
  · rw [if_neg hz, ← signed_decide_natAbs z]
    exact rounds64_pack _ hexact

theorem roundMag_zero : roundMag 0 0 = 0 := by decide

theorem add_eq_zero_of_val (ha : isFinite a = true) (hb : isFinite b = true) (h : val a + val b = 0) :
    add q a b = if a = negZero ∧ b = negZero then negZero else zero := by
  rw [val_add_val_eq_zero] at h
  have hboth : (sign a && sign b) = true ↔ a = negZero ∧ b = negZero := by
    rw [Bool.and_eq_true, eq_negZero_iff, eq_negZero_iff]
    refine ⟨fun ⟨hsa, hsb⟩ => ?_, fun ⟨⟨hsa, _⟩, hsb, _⟩ => ⟨hsa, hsb⟩⟩
    simp only [signedUnits, hsa, hsb, if_true] at h
    exact ⟨⟨hsa, units_eq_zero.1 (by omega)⟩, hsb, units_eq_zero.1 (by omega)⟩
  rw [add_of_isFinite q ha hb, if_pos h, h, Int.natAbs_zero, roundMag_zero]
  split
  case isTrue hneg => rw [hboth.2 hneg]; rfl
  case isFalse hneg => rw [Bool.eq_false_iff.2 (mt hboth.1 hneg)]; rfl

theorem rounds64_sub (ha : isFinite a = true) (hb : isFinite b = true) :
    Claims.Rounds64 (val a - val b) (sub q a b) := by
  rw [sub_eq_add_neg, ← val_neg]
  exact rounds64_add q ha ((isFinite_neg b).trans hb)

theorem sub_eq_zero_of_val (ha : isFinite a = true) (hb : isFinite b = true) (h : val a - val b = 0) :
    sub q a b = if a = negZero ∧ b = zero then negZero else zero := by
  rw [sub_eq_add_neg, ← val_neg] at h
  have hadd := add_eq_zero_of_val q ha ((isFinite_neg b).trans hb) h
  simp only [neg_eq_negZero_iff] at hadd
  exact hadd

end

/-! ### Multiplication and division -/

section
variable {a b : F64} (q : F64)

theorem rounds64_mul (ha : isFinite a = true) (hb : isFinite b = true) :
    Claims.Rounds64 (val a * val b) (mul q a b) := by
  have hexact := sameComparisons_div 1074 (units a * units b)
  have hval : val a * val b =
      signed (sign a != sign b) (((units a * units b : Nat) : ℚ) / 2 ^ 1074) / 2 ^ 1074 := by
    rw [val_eq_signed, val_eq_signed, div_mul_div_comm, signed_mul, ← div_div, signed_div_right, Nat.cast_mul]
  rw [mul_of_isFinite q ha hb, hval]
  exact rounds64_pack _ hexact

theorem rounds64_div (ha : isFinite a = true) (hb : isFinite b = true) (h0 : val b ≠ 0) :
    Claims.Rounds64 (val a / val b) (div q a b) := by
  rw [Ne, val_eq_zero] at h0
  have hub : 0 < units b := Nat.pos_of_ne_zero (mt units_eq_zero.1 h0)
  have hexact := sameComparisons_sticky (n := units a * 2 ^ 2300) 1225 hub
  have hunit : (2 : ℚ) ^ 1074 ≠ 0 := by positivity
  have hscale : ((units a * 2 ^ 2300 : Nat) : ℚ) / units b / 2 ^ (1225 + 1) = units a / units b * 2 ^ 1074 := by
    have hpow : (2 : ℚ) ^ 2300 = 2 ^ 1074 * 2 ^ (1225 + 1) := by rw [← pow_add]
    rw [Nat.cast_mul, Nat.cast_pow, Nat.cast_ofNat, hpow, ← mul_assoc, mul_div_right_comm,
      mul_div_cancel_right₀ _ (by positivity), mul_div_right_comm]
  have hval : val a / val b =
      signed (sign a != sign b) ((units a : ℚ) / units b * 2 ^ 1074) / 2 ^ 1074 := by
    rw [val_eq_signed, val_eq_signed, div_div_div_cancel_right₀ hunit, signed_div, signed_div_right,
      mul_div_cancel_right₀ _ hunit]
  rw [hscale] at hexact
  rw [div_of_isFinite q ha hb h0, hval]
  exact rounds64_pack _ hexact

theorem sign_mul_of_isFinite (ha : isFinite a = true) (hb : isFinite b = true) :
    sign (mul q a b) = (sign a != sign b) := by
  rw [mul_of_isFinite q ha hb, sign_pack _ (roundMag_lt _ _)]

theorem sign_div_of_isFinite (ha : isFinite a = true) (hb : isFinite b = true) (h0 : val b ≠ 0) :
    sign (div q a b) = (sign a != sign b) := by
  rw [div_of_isFinite q ha hb (mt val_eq_zero.2 h0), sign_pack _ (roundMag_lt _ _)]

end

/-! ### The comparison -/

theorem signedUnits_lt_iff (a b : F64) : signedUnits a < signedUnits b ↔ key a < key b := by
  have hlt : ∀ x y : F64, units x < units y ↔ mag x < mag y := fun x y =>
    (gridUnits_strictMono 52).lt_iff_lt
  have hab := hlt a b
  have hba := hlt b a
  have ha := units_eq_zero (x := a)
  have hb := units_eq_zero (x := b)
  unfold signedUnits key
  cases sign a <;> cases sign b <;> simp only [if_true, if_false, Bool.false_eq_true] <;> omega

theorem val_lt_val_iff {a b : F64} : val a < val b ↔ key a < key b := by
  rw [val, val, div_lt_div_iff_of_pos_right (by positivity), Int.cast_lt, signedUnits_lt_iff]

theorem lt_iff_key {a b : F64} (ha : isNaN a = false) (hb : isNaN b = false) :
    lt a b = true ↔ key a < key b := by
  simp [lt, ha, hb]

/-! ### Infinities and NaN operands -/

theorem operations_of_isNaN {a b : F64} (q : F64) (h : isNaN a = true ∨ isNaN b = true) :
    add q a b = q ∧ sub q a b = q ∧ mul q a b = q ∧ div q a b = q ∧ lt a b = false := by
  have hor : (isNaN a || isNaN b) = true := by rwa [Bool.or_eq_true]
  have hlt : (!isNaN a && !isNaN b) = false := by rw [← Bool.not_or, hor]; rfl
  simp [add, sub, mul, div, lt, hor, hlt]

section
variable {a b : F64} (q : F64)

theorem key_of_isInf (ha : isInf a = true) : key a = if sign a then -(infMag : Int) else infMag := by
  rw [key, isInf_iff.1 ha]

theorem abs_key_lt_of_isFinite (hb : isFinite b = true) : |key b| < infMag := by
  have := isFinite_iff.1 hb
  rw [key]
  split <;> simpa

theorem neg_of_isInf (ha : isInf a = true) : neg a = pack (!sign a) infMag := by
  rw [eq_pack_infMag ((isInf_neg a).trans ha), sign_neg]

theorem operations_of_isInf_isInf (ha : isInf a = true) (hb : isInf b = true) :
    add q a b = (if sign a = sign b then a else q) ∧
    sub q a b = (if sign a = sign b then q else a) ∧
    mul q a b = pack (sign a != sign b) infMag ∧
    div q a b = q ∧
    (lt a b = true ↔ sign a = true ∧ sign b = false) := by
  have hna := isNaN_of_isInf ha
  have hnb := isNaN_of_isInf hb
  have hm : infMag ≠ 0 := by decide
  refine ⟨?_, ?_, ?_, ?_, ?_⟩
  · simp [add, hna, hnb, ha, hb]
  · simp [sub, add, hna, hnb, ha, hb]
  · simp [mul, hna, hnb, ha, isInf_iff.1 ha, isInf_iff.1 hb, hm]
  · simp [div, hna, hnb, ha, hb]
  · rw [lt_iff_key hna hnb, key_of_isInf ha, key_of_isInf hb]
    cases sign a <;> cases sign b <;> simp [infMag]

theorem lt_of_isInf_isFinite (ha : isInf a = true) (hb : isFinite b = true) :
    (lt a b = true ↔ sign a = true) ∧ (lt b a = true ↔ sign a = false) := by
  have hna := isNaN_of_isInf ha
  have hnb := isNaN_of_isFinite hb
  have hkey := abs_lt.1 (abs_key_lt_of_isFinite hb)
  rw [lt_iff_key hna hnb, lt_iff_key hnb hna, key_of_isInf ha]
  cases sign a
  · simpa using ⟨hkey.2.le, hkey.2⟩
  · simpa using ⟨hkey.1, hkey.1.le⟩

theorem operations_of_isInf_isFinite (ha : isInf a = true) (hb : isFinite b = true) :
    add q a b = a ∧ add q b a = a ∧ sub q a b = a ∧
    sub q b a = pack (!sign a) infMag ∧
    mul q a b = (if val b = 0 then q else pack (sign a != sign b) infMag) ∧
    mul q b a = mul q a b ∧
    div q a b = pack (sign a != sign b) infMag ∧
    div q b a = pack (sign a != sign b) 0 ∧
    (lt a b = true ↔ sign a = true) ∧ (lt b a = true ↔ sign a = false) := by
  have hna := isNaN_of_isInf ha
  have hnb := isNaN_of_isFinite hb
  have hib := isInf_of_isFinite hb
  have hm : infMag ≠ 0 := by decide
  refine ⟨?_, ?_, ?_, ?_, ?_, ?_, ?_, ?_, lt_of_isInf_isFinite ha hb⟩
  · simp [add, hna, hnb, ha, hib]
  · simp [add, hna, hnb, ha, hib]
  · simp [sub, add, hna, hnb, ha, hib]
  · simp [sub, add, hna, hnb, ha, hib, ← neg_of_isInf ha]
  · simp [mul, hna, hnb, ha, isInf_iff.1 ha, hm]
  · simp [mul, hna, hnb, ha, isInf_iff.1 ha, hm, bne_comm]
  · simp [div, hna, hnb, ha, hib]
  · simp [div, hna, hnb, ha, hib, bne_comm]

end

/-! ### Conversions from integers -/

theorem rounds64_ofInt (i : Int) : Claims.Rounds64 i (ofInt i) := by
  have hunit : (2 : ℚ) ^ 1074 ≠ 0 := by positivity
  have hexact := sameComparisons_div 0 (i.natAbs * 2 ^ 1074)
  rw [pow_zero, div_one] at hexact
  have hval : (i : ℚ) = signed (decide (i < 0)) ((i.natAbs * 2 ^ 1074 : Nat) : ℚ) / 2 ^ 1074 := by
    rw [signed_div_right, Nat.cast_mul, Nat.cast_pow, Nat.cast_ofNat, mul_div_cancel_right₀ _ hunit,
      signed_decide_natAbs]
  rw [hval]
  exact rounds64_pack _ hexact

theorem exists_val_eq_intCast {i : Int} (hi : i.natAbs ≤ 2 ^ 53) :
    ∃ c : F64, isFinite c = true ∧ val c = i := by
  obtain ⟨k, hk⟩ := exists_gridUnits_eq 52 1074 i.natAbs hi
  have hlt : k < infMag := by
    have hinf : infMag = 2045 * 2 ^ 52 + 2 ^ 53 := by decide
    rw [← (gridUnits_strictMono 52).lt_iff_lt, hk, hinf, gridUnits_scale le_rfl (.inr (by decide))]
    exact (Nat.mul_le_mul_right (2 ^ 1074) hi).trans_lt (by gcongr <;> decide)
  have hk63 := hlt.trans infMag_lt
  refine ⟨pack (decide (i < 0)) k, by rwa [isFinite_iff, mag_pack _ hk63], ?_⟩
  rw [val_pack _ hk63, hk, signed_div_right, Nat.cast_mul, Nat.cast_pow, Nat.cast_ofNat,
    mul_div_cancel_right₀ _ (by positivity), signed_decide_natAbs]

theorem ofInt_exact {i : Int} (hi : i.natAbs ≤ 2 ^ 53) : isFinite (ofInt i) = true ∧ val (ofInt i) = i := by
  obtain ⟨c, hc, hval⟩ := exists_val_eq_intCast hi
  rw [← hval]
  exact eq_val_of_rounds64 hc (hval ▸ rounds64_ofInt i)

theorem ofInt_natCast (n : Nat) : ofInt n = ofNat n := by
  rw [ofInt, ofNat, Int.natAbs_natCast, decide_eq_false (Int.natCast_nonneg n).not_gt]

theorem ofNat_exact {n : Nat} (hn : n ≤ 2 ^ 53) : isFinite (ofNat n) = true ∧ val (ofNat n) = n := by
  have h := ofInt_exact (i := n) (by simpa only [Int.natAbs_natCast] using hn)
  rwa [ofInt_natCast, Int.cast_natCast] at h

end Sys2Proof.F64

namespace Sys2Proof

open F64 in
/-- Settles O54: each finite operation rounds its exact result, and the other operands are told apart by their
class. -/
theorem arithmeticIsNearestEven : Obligations.ArithmeticIsNearestEven := by
  refine ⟨fun q a b ha hb => ?_, fun q a b => operations_of_isNaN q,
    fun q a b => operations_of_isInf_isInf q, fun q a b => operations_of_isInf_isFinite q,
    fun n => ofNat_exact, fun i => ofInt_exact⟩
  have hzero := fun h0 : val b = 0 => div_of_isFinite_of_zero q ha hb (val_eq_zero.1 h0)
  refine ⟨rounds64_add q ha hb, rounds64_sub q ha hb, rounds64_mul q ha hb, rounds64_div q ha hb,
    add_eq_zero_of_val q ha hb, sub_eq_zero_of_val q ha hb, sign_mul_of_isFinite q ha hb,
    sign_div_of_isFinite q ha hb, fun h0 hne => ?_, fun h0 hz => ?_, ?_⟩
  · rw [hzero h0, if_neg (mt val_eq_zero.2 hne)]
  · rw [hzero h0, if_pos (val_eq_zero.1 hz)]
  · rw [lt_iff_key (isNaN_of_isFinite ha) (isNaN_of_isFinite hb), val_lt_val_iff]

end Sys2Proof
end

section
/-! What a command can do to the state, said once per command, and that every step keeps the invariant of the
memory and of the delay line (R53, R61 to R63). -/

namespace Sys2Proof.Machine

/-! ### What the commands can do -/

/-- `t` is `s` after a command that may have written coefficients and its result code, and nothing else. -/
def CoefOnly (s t : State) : Prop := t = { s with coef := t.coef, err := t.err, pending := none }

theorem coefOnly_complete (code : ErrCode) (s : State) : CoefOnly s (s.complete code) := rfl

theorem coefOnly_raise (code : ErrCode) (s : State) : CoefOnly s (s.raise code) := rfl

theorem coefOnly_complete_setCoef (i : Fin 6) (c : Coef) (code : ErrCode) (s : State) :
    CoefOnly s ((s.setCoef i c).complete code) := rfl

theorem coefOnly_designInto (E : Env) (k : Kind) (q : F64) (i : Fin 6) (s : State) :
    CoefOnly s (designInto E k q i s) := by
  unfold designInto
  split
  · exact coefOnly_complete_setCoef i _ .ok s
  · exact coefOnly_raise .contract s

theorem coefOnly_onStage {f : Fin 6 → State → State} {s : State} (hf : ∀ i, CoefOnly s (f i s))
    (stage : BitVec 3) : CoefOnly s (onStage stage f s) := by
  unfold onStage
  split
  · exact hf _
  · exact coefOnly_raise .illegal s

/-- A reload writes one bank of coefficients or refuses (R150 to R153). -/
theorem coefOnly_ldcoef (stage : BitVec 3) (s : State) : CoefOnly s (ldcoef stage s) :=
  coefOnly_onStage (fun i => coefOnly_complete_setCoef i _ .ok s) stage

theorem coefOnly_setls (E : Env) (stage : BitVec 3) (s : State) : CoefOnly s (setls E stage s) :=
  coefOnly_onStage (fun i => coefOnly_designInto E _ _ i s) stage

theorem coefOnly_seths (E : Env) (stage : BitVec 3) (s : State) : CoefOnly s (seths E stage s) :=
  coefOnly_onStage (fun i => coefOnly_designInto E _ _ i s) stage

theorem coefOnly_setpk (E : Env) (stage : BitVec 3) (s : State) : CoefOnly s (setpk E stage s) :=
  coefOnly_onStage (fun i => coefOnly_designInto E _ _ i s) stage

/-- A PROCESS that is not refused runs its frames and counts them (R260). -/
theorem process_accepted (E : Env) {s : State} (hfsm : s.fsm ≠ .unconfigured)
    (hlen : s.inLen.toNat ≤ E.P.ibufBytes) :
    process E s = State.complete .ok
      { processFrames E (frameCount s) 0 s with
        outFrames := BitVec.ofNat 32 (frameCount s)
        outBytes := BitVec.ofNat 32 (frameCount s * s.actCh.count * 4)
        fsm := .processing } := by
  rw [process, if_neg hfsm, if_neg hlen.not_gt]

/-- PROCESS is refused in UNCONFIGURED and for a length past IBUF, in this order, and nowhere else (R260). -/
theorem process_cases (E : Env) (s : State) :
    (s.fsm = .unconfigured ∧ process E s = s.raise .state) ∨
    (s.fsm ≠ .unconfigured ∧ E.P.ibufBytes < s.inLen.toNat ∧ process E s = s.raise .length) ∨
    (s.fsm ≠ .unconfigured ∧ s.inLen.toNat ≤ E.P.ibufBytes) := by
  by_cases hfsm : s.fsm = .unconfigured
  · exact .inl ⟨hfsm, by rw [process, if_pos hfsm]⟩
  rcases Nat.lt_or_ge E.P.ibufBytes s.inLen.toNat with hlen | hlen
  · exact .inr (.inl ⟨hfsm, hlen, by rw [process, if_neg hfsm, if_pos hlen]⟩)
  · exact .inr (.inr ⟨hfsm, hlen⟩)

/-- CONFIGURE rejects with a code, or accepts a format whose delay line fits (R255 to R257). -/
theorem configure_cases (E : Env) (s : State) :
    (∃ code, configure E s = s.reject code) ∨
    (∃ ch enc, delayLength (rateOperand s) ≤ E.P.dlMax ∧ configure E s = configureAccept E ch enc s) := by
  unfold configure
  cases hc : configureCheck E s with
  | error code => exact .inl ⟨code, rfl⟩
  | ok format =>
    refine .inr ⟨format.1, format.2, ?_, rfl⟩
    unfold configureCheck at hc
    split at hc
    · cases hc
    split at hc
    · split at hc
      · cases hc
      split at hc
      · cases hc
      · next hl => exact Nat.le_of_not_lt hl
    · cases hc

/-! ### The cursors -/

/-- A cursor in the line goes one on, or from the last entry back to 0 (R204, R205). -/
theorem toNat_advance {idx len : Word} (h : idx.toNat < len.toNat) :
    (advance idx len).toNat = if idx.toNat + 1 = len.toNat then 0 else idx.toNat + 1 := by
  have hlen := len.isLt
  rw [advance, BitVec.toNat_ofNat]
  split
  · next hlast => rw [hlast, Nat.mod_self, Nat.zero_mod]
  · rw [Nat.mod_eq_of_lt (show idx.toNat + 1 < len.toNat by omega), Nat.mod_eq_of_lt (by omega)]

theorem toNat_advance_lt {idx len : Word} (h : idx.toNat < len.toNat) :
    (advance idx len).toNat < len.toNat := by
  rw [toNat_advance h]
  split <;> omega

/-- Two cursors that both go one on keep their distance (R63). -/
theorem lag_advance {w r len : Word} (hw : w.toNat < len.toNat) (hr : r.toNat < len.toNat) :
    ((advance w len).toNat + len.toNat - (advance r len).toNat) % len.toNat
      = (w.toNat + len.toNat - r.toNat) % len.toNat := by
  rw [toNat_advance hw, toNat_advance hr]
  split <;> split
  · congr 1; omega
  · rw [show w.toNat + len.toNat - r.toNat = 0 + len.toNat - (r.toNat + 1) + len.toNat by omega,
      Nat.add_mod_right]
  · rw [show w.toNat + 1 + len.toNat - 0 = w.toNat + len.toNat - r.toNat + len.toNat by omega,
      Nat.add_mod_right]
  · congr 1; omega

theorem initialReadCursor_lt {len : Nat} (delay : Nat) (h : len ≠ 0) : initialReadCursor len delay < len := by
  rw [initialReadCursor, if_neg h]
  exact Nat.mod_lt _ (Nat.pos_of_ne_zero h)

/-- The initial read cursor lies `delay` behind a write cursor at 0 (R202). -/
theorem lag_initialReadCursor {len : Nat} (delay : Nat) (h : len ≠ 0) :
    (len - initialReadCursor len delay) % len = delay % len := by
  have hlt := Nat.mod_lt delay (Nat.pos_of_ne_zero h)
  rw [initialReadCursor, if_neg h]
  rcases Nat.eq_zero_or_pos (delay % len) with h0 | hpos
  · rw [h0, Nat.sub_zero, Nat.mod_self, Nat.sub_zero, Nat.mod_self]
  · rw [Nat.mod_eq_of_lt (show len - delay % len < len by omega), Nat.sub_sub_self hlt.le,
      Nat.mod_eq_of_lt hlt]

/-- A legal access of IBUF lies inside it (R82, R86). -/
theorem ibuf_bounds_of_locate {P : Params} {addr : Word} {w : Width} {off : Nat}
    (h : locate P addr w = .ok (.ibuf off)) : 0x20000 ≤ off ∧ off + w.bytes ≤ 0x20000 + P.ibufBytes := by
  unfold locate at h
  split at h
  · cases h
  split at h
  · cases h
  next o _ p hp =>
  cases h
  unfold placeOf at hp
  split_ifs at hp
  · cases hp
  · cases hp
  · cases hp
    exact ⟨by omega, by omega⟩
  · cases hp

/-! ### The invariant, operation by operation -/

namespace State.Inv

variable {P : Params} {s t : State}

/-- The invariant speaks of the memory, the delay line and its cursors alone. -/
theorem congr (h : s.Inv P) (hmem : t.mem = s.mem) (hdl : t.dl = s.dl) (hlen : t.dlLen = s.dlLen)
    (hdelay : t.dlDelay = s.dlDelay) (hw : t.dlWidx = s.dlWidx) (hr : t.dlRidx = s.dlRidx) : t.Inv P := by
  obtain ⟨memWf, memIn, dlEntries, dlBound, cursors, cursorsZero, lag⟩ := h
  rw [← hmem] at memWf memIn
  rw [← hdl, ← hlen] at dlEntries
  rw [← hlen] at dlBound
  rw [← hlen, ← hw, ← hr] at cursors cursorsZero
  rw [← hlen, ← hw, ← hr, ← hdelay] at lag
  exact ⟨memWf, memIn, dlEntries, dlBound, cursors, cursorsZero, lag⟩

theorem of_fstOnly {n : Nat} (h : s.Inv P) (ht : FstOnly n s t) : t.Inv P := by
  rw [ht]
  exact h.congr rfl rfl rfl rfl rfl rfl

theorem of_coefOnly (h : s.Inv P) (ht : CoefOnly s t) : t.Inv P := by
  rw [ht]
  exact h.congr rfl rfl rfl rfl rfl rfl

/-- A store inside the buffers. -/
theorem writeLE (h : s.Inv P) (off : Nat) (v : Word) (n : Nat)
    (hin : ∀ a, off ≤ a → a < off + n → InBuffers P a) :
    State.Inv P { s with mem := s.mem.writeLE off v n } := by
  refine ⟨Memory.wf_writeLE off v n h.memWf, fun c hc => ?_, h.dlEntries, h.dlBound, h.cursors, h.cursorsZero,
    h.lag⟩
  rcases Memory.mem_writeLE hc with ⟨hlo, hhi⟩ | hc
  · exact hin _ hlo hhi
  · exact h.memIn c hc

/-- What `dl_init` leaves of a line that fits (R202, R203). -/
theorem fresh_line (h : s.Inv P) (hmem : t.mem = s.mem)
    (hdl : t.dl = List.replicate t.dlLen.toNat F64.zero) (hw : t.dlWidx = 0)
    (hr : t.dlRidx = BitVec.ofNat 32 (initialReadCursor t.dlLen.toNat t.dlDelay.toNat))
    (hbound : t.dlLen.toNat ≤ P.dlMax) : t.Inv P := by
  have hridx : t.dlLen ≠ 0 → t.dlRidx.toNat = initialReadCursor t.dlLen.toNat t.dlDelay.toNat := fun h0 => by
    rw [hr, BitVec.toNat_ofNat]
    exact Nat.mod_eq_of_lt ((initialReadCursor_lt _ (BitVec.toNat_ne_iff_ne.2 h0)).trans t.dlLen.isLt)
  refine ⟨hmem ▸ h.memWf, hmem ▸ h.memIn, by rw [hdl, List.length_replicate], hbound, fun h0 => ?_,
    fun h0 => ⟨hw, ?_⟩, fun h0 => ?_⟩
  · rw [hw, hridx h0]
    exact ⟨Nat.pos_of_ne_zero (BitVec.toNat_ne_iff_ne.2 h0), initialReadCursor_lt _ (BitVec.toNat_ne_iff_ne.2 h0)⟩
  · rw [hr, h0]
    rfl
  · rw [hw, hridx h0, show BitVec.toNat (0 : Word) = 0 from rfl, Nat.zero_add]
    exact lag_initialReadCursor _ (BitVec.toNat_ne_iff_ne.2 h0)

/-- The widener keeps the line's length and moves both cursors together (R204 to R207). -/
theorem midSide (h : s.Inv P) (E : Env) (l r : F64) : (midSide E l r s).2.Inv P := by
  by_cases h0 : s.dlLen = 0
  · rw [midSide_zeroLength E l r s h0]
    exact h.congr rfl rfl rfl rfl rfl rfl
  · rw [midSide_delay E l r s h0]
    obtain ⟨hw, hr⟩ := h.cursors h0
    exact ⟨h.memWf, h.memIn, List.length_set.trans h.dlEntries, h.dlBound,
      fun _ => ⟨toNat_advance_lt hw, toNat_advance_lt hr⟩, fun h1 => absurd h1 h0,
      fun _ => (lag_advance hw hr).trans (h.lag h0)⟩

theorem widenFrame (h : s.Inv P) (E : Env) (l r : F64) : (widenFrame E l r s).2.Inv P := by
  cases hc : s.actCh with
  | mono => rwa [widenFrame_mono E l r hc]
  | stereo => rw [widenFrame_stereo E l r hc]; exact h.midSide E l r

/-- An output sample whose four bytes lie in OBUF. -/
theorem emit (h : s.Inv P) (E : Env) {o : Nat} (v : F64) (ho : o + 4 ≤ P.obufBytes) : (emit E o v s).Inv P :=
  (h.writeLE (obufBase + o) (limit E v s) 4 fun _ hlo hhi => .inr ⟨by omega, by omega⟩).congr
    rfl rfl rfl rfl rfl rfl

theorem emitFrame (h : s.Inv P) (E : Env) {n : Nat} (l r : F64)
    (hn : (n + 1) * (4 * s.actCh.count) ≤ P.obufBytes) : (emitFrame E n l r s).Inv P := by
  cases hc : s.actCh with
  | mono =>
    rw [hc, Channels.count] at hn
    rw [emitFrame_mono E n l r hc]
    exact h.emit E l (by omega)
  | stereo =>
    rw [hc, Channels.count] at hn
    rw [emitFrame_stereo E n l r hc]
    exact (h.emit E l (by omega)).emit E r (by omega)

/-- A frame whose output lies in OBUF (R250). -/
theorem processFrame (h : s.Inv P) (E : Env) {n : Nat} (hn : (n + 1) * (4 * s.actCh.count) ≤ P.obufBytes) :
    (processFrame E n s).Inv P := by
  have hwide : (frameWide E n s).2.Inv P := (h.of_fstOnly (fstOnly_frameRight E n s)).widenFrame E _ _
  have hch : (frameWide E n s).2.actCh = s.actCh := by rw [frameOf_frameWide E n s]
  rw [processFrame_eq]
  exact hwide.emitFrame E _ _ (by rwa [hch])

theorem processFrames (E : Env) (k : Nat) {n : Nat} {s : State} (h : s.Inv P)
    (hk : (n + k) * (4 * s.actCh.count) ≤ P.obufBytes) : (processFrames E k n s).Inv P := by
  induction k generalizing n s with
  | zero => exact h
  | succ k ih =>
    have hch : (Machine.processFrame E n s).actCh = s.actCh := by rw [frameOf_processFrame E n s]
    have hfirst : (n + 1) * (4 * s.actCh.count) ≤ P.obufBytes :=
      (Nat.mul_le_mul_right _ (by omega)).trans hk
    exact ih (h.processFrame E hfirst) (by rwa [hch, Nat.add_right_comm])

end State.Inv

/-! ### The invariant, command by command -/

/-- The output of an accepted PROCESS fits OBUF: a frame of `FB` input bytes gives at most `2 FB` output bytes,
IBUF holds a whole number of frames, and OBUF is twice as long (R9, R251). -/
theorem frameCount_le_obuf {P : Params} (hP : P.Ok) {s : State} (h : s.inLen.toNat ≤ P.ibufBytes) :
    frameCount s * (4 * s.actCh.count) ≤ P.obufBytes := by
  obtain ⟨hmod, -, -⟩ := hP.ibufBytes
  obtain ⟨htwice, -, -⟩ := hP.obufBytes
  cases hch : s.actCh <;> cases henc : s.actEnc <;>
    simp only [frameCount, frameBytes, hch, henc, Channels.count, Enc.bytes] <;> omega

namespace State.Inv

variable {s : State}

theorem process {E : Env} (hP : E.P.Ok) (h : s.Inv E.P) : (process E s).Inv E.P := by
  rcases process_cases E s with ⟨-, hp⟩ | ⟨-, -, hp⟩ | ⟨hfsm, hlen⟩
  · rw [hp]; exact h.of_coefOnly (coefOnly_raise _ s)
  · rw [hp]; exact h.of_coefOnly (coefOnly_raise _ s)
  · have hframes := processFrames E (frameCount s) (n := 0) h (by
      rw [Nat.zero_add]; exact frameCount_le_obuf hP hlen)
    rw [process_accepted E hfsm hlen]
    exact hframes.congr rfl rfl rfl rfl rfl rfl

theorem configure {E : Env} (h : s.Inv E.P) : (configure E s).Inv E.P := by
  rcases configure_cases E s with ⟨code, hc⟩ | ⟨ch, enc, hfit, hc⟩
  · rw [hc]
    exact h.congr rfl rfl rfl rfl rfl rfl
  · have hbound : (BitVec.ofNat 32 (delayLength (rateOperand s))).toNat ≤ E.P.dlMax := by
      rw [BitVec.toNat_ofNat]
      exact (Nat.mod_le _ _).trans hfit
    rw [hc]
    exact h.fresh_line rfl rfl rfl rfl hbound

theorem flush {P : Params} (h : s.Inv P) : (flush s).Inv P :=
  h.fresh_line rfl rfl rfl rfl h.dlBound

theorem resetCommand {P : Params} (h : s.Inv P) : (resetCommand s).Inv P :=
  h.fresh_line rfl rfl rfl rfl h.dlBound

theorem result (h : s.Inv Config.params) (i : Instr) : (result i s).Inv Config.params := by
  cases i with
  | nop => exact h.of_coefOnly (coefOnly_complete .ok s)
  | configure => exact h.configure (E := Config.env)
  | process => exact h.process (E := Config.env) Config.params_ok
  | flush => exact h.flush
  | reset => exact h.resetCommand
  | ldcoef stage => exact h.of_coefOnly (coefOnly_ldcoef stage s)
  | setls stage => exact h.of_coefOnly (coefOnly_setls _ stage s)
  | seths stage => exact h.of_coefOnly (coefOnly_seths _ stage s)
  | setpk stage => exact h.of_coefOnly (coefOnly_setpk _ stage s)

theorem wordResult (h : s.Inv Config.params) (w : Word) : (wordResult w s).Inv Config.params := by
  unfold Machine.wordResult
  split
  · exact h.result _
  · exact h.of_coefOnly (coefOnly_raise .illegal s)

/-! ### The invariant, event by event -/

theorem writeReg {P : Params} (h : s.Inv P) (E : Env) (r : Reg) (v : Word) : (writeReg E r v s).Inv P := by
  cases r <;> exact h.congr rfl rfl rfl rfl rfl rfl

/-- A legal write: only one of IBUF reaches the memory, and it stays inside IBUF. -/
theorem hostWrite {E : Env} (h : s.Inv E.P) {addr : Word} {w : Width} {p : Place} (v : Word)
    (hp : locate E.P addr w = .ok p) : (hostWrite E p w v s).Inv E.P := by
  unfold Machine.hostWrite
  split
  · exact h.congr rfl rfl rfl rfl rfl rfl
  cases p with
  | reg off => exact h.writeReg E (regAt off) v
  | dlwin off => exact h
  | obuf off => exact h
  | ibuf off =>
    obtain ⟨hlo, hhi⟩ := ibuf_bounds_of_locate hp
    exact h.writeLE off v w.bytes fun a ha hb => .inl ⟨by unfold ibufBase; omega, by unfold ibufBase; omega⟩

theorem hostWait {P : Params} (h : s.Inv P) : (hostWait s).Inv P := by
  unfold Machine.hostWait
  split <;> exact h.congr rfl rfl rfl rfl rfl rfl

/-- Power-on leaves an empty memory and no delay line (R340). -/
theorem powerOn (P : Params) (s : State) : (powerOn s).Inv P where
  memWf := .nil
  memIn _ hc := absurd hc List.not_mem_nil
  dlEntries := rfl
  dlBound := Nat.zero_le _
  cursors h := absurd rfl h
  cursorsZero _ := ⟨rfl, rfl⟩
  lag h := absurd rfl h

theorem hostEvent {E : Env} {ev : Input} {t : State} (ht : hostEvent E ev s = .next t) (h : s.Inv E.P) :
    t.Inv E.P := by
  rcases hostEvent_cases ht with ⟨addr, w, p, -, -, rfl⟩ | ⟨addr, w, v, p, -, hp, rfl⟩ | ⟨-, rfl⟩ | ⟨-, rfl⟩
  · rw [hostRead_frame]
    exact h.congr rfl rfl rfl rfl rfl rfl
  · exact h.hostWrite v hp
  · exact h.hostWait
  · exact powerOn E.P s

end State.Inv

end Sys2Proof.Machine

namespace Sys2Proof

open Machine in
/-- Settles O46: a step is nothing, one event from outside or one command, and each of these keeps the
invariant. -/
theorem stepKeepsTheInvariant : Obligations.StepKeepsTheInvariant := by
  intro s t h ht
  rcases step_cases ht with ⟨-, -, rfl⟩ | ⟨ev, rest, -, -, he⟩ | ⟨w, k, ev, rest, -, -, he⟩ | ⟨c, -, -, rfl⟩
  · exact h
  · exact State.Inv.hostEvent he (h.congr rfl rfl rfl rfl rfl rfl)
  · exact State.Inv.hostEvent he (h.congr rfl rfl rfl rfl rfl rfl)
  · exact h.wordResult c.word

end Sys2Proof
end

section
/-! The host's side of a step: where a legal access lands, what an idle write and an idle read do there, and
the words of the registers, of the readback windows and of the buffers as numbers. -/

namespace Sys2Proof.Machine

/-! ### Fields of words as numbers -/

/-- A word put together from two fields, as a number. -/
theorem toNat_append {m n : Nat} (x : BitVec m) (y : BitVec n) :
    (x ++ y).toNat = x.toNat * 2 ^ n + y.toNat := by
  rw [BitVec.toNat_append, ← Nat.shiftLeft_add_eq_or_of_lt y.isLt, Nat.shiftLeft_eq]

/-- A field of a word, as a number. -/
theorem toNat_extractLsb' {n : Nat} (lo len : Nat) (x : BitVec n) :
    (x.extractLsb' lo len).toNat = x.toNat / 2 ^ lo % 2 ^ len := by
  rw [BitVec.extractLsb'_toNat, Nat.shiftRight_eq_div_pow]

/-- A bit of a word, as a one-bit field. -/
theorem toNat_ofBool_getLsbD {n : Nat} (x : BitVec n) (i : Nat) :
    (BitVec.ofBool (x.getLsbD i)).toNat = x.toNat / 2 ^ i % 2 := by
  rw [BitVec.toNat_ofBool, BitVec.getLsbD, Nat.toNat_testBit]

theorem getLsbD_iff {n : Nat} (x : BitVec n) (i : Nat) : x.getLsbD i = true ↔ x.toNat / 2 ^ i % 2 = 1 := by
  rw [BitVec.getLsbD, Nat.testBit_eq_decide_div_mod_eq, decide_eq_true_iff]

@[simp] theorem toNat_halfWord_lo (v : F64) : (halfWord .lo v).toNat = v.toNat % 2 ^ 32 := by
  rw [halfWord, toNat_extractLsb', pow_zero, Nat.div_one]

@[simp] theorem toNat_halfWord_hi (v : F64) : (halfWord .hi v).toNat = v.toNat / 2 ^ 32 := by
  have hv := v.isLt
  rw [halfWord, toNat_extractLsb']
  exact Nat.mod_eq_of_lt (by omega)

@[simp] theorem toNat_setHalf_lo (w : Word) (v : F64) :
    (setHalf .lo w v).toNat = v.toNat / 2 ^ 32 * 2 ^ 32 + w.toNat := by
  rw [← toNat_halfWord_hi]
  exact toNat_append _ w

@[simp] theorem toNat_setHalf_hi (w : Word) (v : F64) :
    (setHalf .hi w v).toNat = w.toNat * 2 ^ 32 + v.toNat % 2 ^ 32 := by
  rw [← toNat_halfWord_lo]
  exact toNat_append w _

@[simp] theorem Fsm.toNat_code (x : Fsm) : x.code.toNat = Claims.fsmNumber x := by cases x <;> rfl

@[simp] theorem ErrCode.toNat_code (x : ErrCode) : x.code.toNat = Claims.errNumber x := by cases x <;> rfl

@[simp] theorem Clip.toNat_code (x : Clip) : x.code.toNat = Claims.clipNumber x := by cases x <;> rfl

@[simp] theorem FloatPolicy.toNat_code (x : FloatPolicy) : x.code.toNat = Claims.policyNumber x := by
  cases x <;> rfl

@[simp] theorem Enc.toNat_code (x : Enc) : x.code.toNat = Claims.encNumber x := by cases x <;> rfl

@[simp] theorem Channels.toNat_code (x : Channels) : x.code.toNat = Claims.channelNumber x := by
  cases x <;> rfl

@[simp] theorem Clip.code_ofBit (b : Bool) : (Clip.ofBit b).code = BitVec.ofBool b := by cases b <;> rfl

@[simp] theorem FloatPolicy.code_ofBit (b : Bool) : (FloatPolicy.ofBit b).code = BitVec.ofBool b := by
  cases b <;> rfl

theorem Clip.ofBit_eq_soft {b : Bool} : Clip.ofBit b = .soft ↔ b = true := by cases b <;> decide

theorem FloatPolicy.ofBit_eq_reject {b : Bool} : FloatPolicy.ofBit b = .reject ↔ b = true := by
  cases b <;> decide

/-! ### The composed registers -/

/-- STATUS as a number (R37 to R40). -/
theorem toNat_statusWord (s : State) : (statusWord s).toNat = Claims.statusNumber s := by
  have hbool : ∀ b : Bool, (BitVec.ofBool b).toNat = if b then 1 else 0 := by decide
  simp only [statusWord, toNat_append, Fsm.toNat_code, ErrCode.toNat_code, hbool, State.busy,
    Claims.statusNumber, BitVec.ofNat_eq_ofNat, BitVec.toNat_zero]
  omega

/-- CTRL as a number (R41 to R43). -/
theorem toNat_ctrlWord (s : State) :
    (ctrlWord s).toNat = Claims.clipNumber s.ctrlClip + 2 * Claims.policyNumber s.ctrlFloat := by
  simp only [ctrlWord, toNat_append, Clip.toNat_code, FloatPolicy.toNat_code, BitVec.ofNat_eq_ofNat, BitVec.toNat_zero]
  omega

/-- CFG_FMT as a number (R46, R47). -/
theorem toNat_cfgFmtWord (s : State) : (cfgFmtWord s).toNat = s.cfgCh.toNat + 256 * s.cfgEnc.toNat := by
  simp only [cfgFmtWord, toNat_append, BitVec.ofNat_eq_ofNat, BitVec.toNat_zero]
  omega

/-- ACT_FMT as a number (R52). -/
theorem toNat_actFmtWord (s : State) :
    (actFmtWord s).toNat = Claims.channelNumber s.actCh + 256 * Claims.encNumber s.actEnc
      + 65536 * Claims.clipNumber s.actClip := by
  simp only [actFmtWord, toNat_append, Clip.toNat_code, Enc.toNat_code, Channels.toNat_code,
    BitVec.ofNat_eq_ofNat, BitVec.toNat_zero]
  omega

/-- CTRL reads what was written with its reserved bits 0 (R41 to R43). -/
theorem ctrlWord_writeCtrl (v : Word) (s : State) : ctrlWord (writeCtrl v s) = v &&& 0x00000003 := by
  refine BitVec.eq_of_toNat_eq ?_
  have hmask : (v &&& 0x00000003).toNat = v.toNat % 2 ^ 2 :=
    (BitVec.toNat_and v 3).trans (Nat.and_two_pow_sub_one_eq_mod v.toNat 2)
  rw [hmask]
  simp only [ctrlWord, writeCtrl, Clip.code_ofBit, FloatPolicy.code_ofBit, toNat_append,
    toNat_ofBool_getLsbD, BitVec.ofNat_eq_ofNat, BitVec.toNat_zero]
  omega

/-- CFG_FMT reads what was written with its reserved bits 0 (R46, R47). -/
theorem cfgFmtWord_writeCfgFmt (v : Word) (s : State) :
    cfgFmtWord (writeCfgFmt v s) = v &&& 0x000003FF := by
  refine BitVec.eq_of_toNat_eq ?_
  have hmask : (v &&& 0x000003FF).toNat = v.toNat % 2 ^ 10 :=
    (BitVec.toNat_and v 0x3FF).trans (Nat.and_two_pow_sub_one_eq_mod v.toNat 10)
  rw [hmask]
  simp only [cfgFmtWord, writeCfgFmt, toNat_append, toNat_extractLsb', BitVec.ofNat_eq_ofNat, BitVec.toNat_zero]
  omega

/-! ### The register map -/

theorem regAt_opd_lo (n : Fin 5) : regAt (0x80 + 8 * n.val) = .opd n .lo := by decide +revert

theorem regAt_opd_hi (n : Fin 5) : regAt (0x84 + 8 * n.val) = .opd n .hi := by decide +revert

/-- The byte offset of a register in its stage bank (R67). -/
def BankReg.offset : BankReg → Nat
  | .a0 => 0x00
  | .a1 => 0x08
  | .a2 => 0x10
  | .b1 => 0x18
  | .b2 => 0x20
  | .x1 => 0x40
  | .x2 => 0x48
  | .y1 => 0x50
  | .y2 => 0x58

theorem regAt_bank_lo (i : Fin 6) (r : BankReg) : regAt (0x100 + 0x80 * i.val + r.offset) = .bank i r .lo := by
  cases r <;> decide +revert

theorem regAt_bank_hi (i : Fin 6) (r : BankReg) : regAt (0x104 + 0x80 * i.val + r.offset) = .bank i r .hi := by
  cases r <;> decide +revert

/-- The table of a stage bank lists its registers at their offsets (R67). -/
theorem bankTable_eq (s : State) (i : Fin 6) :
    Claims.bankTable s i = [BankReg.a0, .a1, .a2, .b1, .b2, .x1, .x2, .y1, .y2].map fun r =>
      (r.offset, bankValue (s.coefAt i) (s.fstAt i) r) := rfl

/-- DLWIN holds two words per entry (R61). -/
theorem dlwinWord_lo (s : State) (i : Nat) :
    dlwinWord s (0x10000 + 8 * i) = halfWord .lo (if i < s.dlLen.toNat then s.dlAt i else F64.zero) := by
  have hindex : (0x10000 + 8 * i - 0x10000) / 8 = i := by omega
  have hhalf : halfOf (0x10000 + 8 * i) = .lo := if_pos (by omega)
  rw [dlwinWord, hindex, hhalf]

theorem dlwinWord_hi (s : State) (i : Nat) :
    dlwinWord s (0x10004 + 8 * i) = halfWord .hi (if i < s.dlLen.toNat then s.dlAt i else F64.zero) := by
  have hindex : (0x10004 + 8 * i - 0x10000) / 8 = i := by omega
  have hhalf : halfOf (0x10004 + 8 * i) = .hi := if_neg (by omega)
  rw [dlwinWord, hindex, hhalf]

/-- A read of a buffer is its bytes, little-endian (R85). -/
theorem toNat_bufWord (E : Env) (s : State) (off : Nat) (w : Width) :
    (bufWord E s off w).toNat = Claims.bytesLE E s off w.bytes := by
  have h16 : (bufRead16 E s off).toNat = Claims.bytesLE E s off 2 := by
    simp only [bufRead16, toNat_append, Claims.bytesLE, Nat.add_zero]
    omega
  have h32 : (bufRead32 E s off).toNat = Claims.bytesLE E s off 4 := by
    simp only [bufRead32, toNat_append, Claims.bytesLE, Nat.add_zero]
    omega
  cases w with
  | b1 =>
    rw [bufWord, BitVec.toNat_setWidth_of_le (by decide)]
    simp [Width.bytes, Claims.bytesLE]
  | b2 => rw [bufWord, BitVec.toNat_setWidth_of_le (by decide), h16, Width.bytes]
  | b4 => exact h32

/-- A buffer byte after a little-endian store. -/
theorem bufByte_writeLE (E : Env) (s : State) (off : Nat) (v : Word) (n a : Nat) :
    bufByte E { s with mem := s.mem.writeLE off v n } a
      = if off ≤ a ∧ a < off + n then v.extractLsb' (8 * (a - off)) 8 else bufByte E s a := by
  simp only [bufByte, Memory.read_writeLE]
  split <;> rfl

/-! ### Where an access lands -/

/-- A word-aligned 32-bit access of the register page (R81, R86). -/
theorem placeOf_reg (P : Params) {off : Nat} (h : off < 0x10000) (h4 : off % 4 = 0) :
    placeOf P off .b4 = some (.reg off) := by
  rw [placeOf, if_pos (by omega), if_pos ⟨rfl, h4⟩, if_pos h]

/-- An aligned access of any width inside IBUF (R82, R86). -/
theorem placeOf_ibuf (P : Params) {off : Nat} {w : Width} (hlo : 0x20000 ≤ off) (hmod : off % w.bytes = 0)
    (hhi : off + w.bytes ≤ 0x20000 + P.ibufBytes) : placeOf P off w = some (.ibuf off) := by
  have hw : 0 < w.bytes := by cases w <;> decide
  rw [placeOf, if_neg (by omega), if_pos (by omega), if_pos ⟨hmod, hhi⟩]

theorem locate_busAddr {P : Params} {off : Nat} {w : Width} {p : Place} (hoff : off < 0x80000)
    (hp : placeOf P off w = some p) : locate P (busAddr P off) w = .ok p := by
  simp only [locate, busAddr, windowOffset_busAddr P off hoff, hp]

/-! ### The step of a host event -/

@[simp] theorem busy_taken (s : State) (rest : List Input) : (Claims.taken s rest).busy = s.busy :=
  Option.isSome_map

/-- When the host makes the next move, the step serves its event (R92, R356). -/
theorem step_of_hostMoves {s : State} {ev : Input} {rest : List Input} (h : Claims.HostMoves s ev rest) :
    step s = hostEvent Config.env ev (Claims.taken s rest) := by
  obtain ⟨hin, hhold⟩ := h
  cases hp : s.pending with
  | none => simp [step, nextAction, Claims.taken, hp, hin]
  | some c =>
    obtain ⟨w, k⟩ := c
    obtain ⟨k, rfl⟩ := Nat.exists_eq_add_one.2 (hhold _ hp)
    simp [step, nextAction, Claims.taken, hp, hin]

section

variable {s : State} {off : Nat} {w : Width} {v : Word} {rest : List Input} {p : Place}

theorem step_write (h : Claims.HostMoves s (.write (busAddr Config.params off) w v) rest)
    (hoff : off < 0x80000) (hp : placeOf Config.params off w = some p) :
    step s = .next (hostWrite Config.env p w v (Claims.taken s rest)) := by
  have hloc : locate Config.env.P (busAddr Config.params off) w = .ok p := locate_busAddr hoff hp
  rw [step_of_hostMoves h, hostEvent, hloc]

theorem step_read (h : Claims.HostMoves s (.read (busAddr Config.params off) w) rest)
    (hoff : off < 0x80000) (hp : placeOf Config.params off w = some p) :
    step s = .next (hostRead Config.env p w (Claims.taken s rest)) := by
  have hloc : locate Config.env.P (busAddr Config.params off) w = .ok p := locate_busAddr hoff hp
  rw [step_of_hostMoves h, hostEvent, hloc]

/-- While idle a write reaches its place (R89, R90). -/
theorem step_write_idle (hidle : s.busy = false)
    (h : Claims.HostMoves s (.write (busAddr Config.params off) w v) rest)
    (hoff : off < 0x80000) (hp : placeOf Config.params off w = some p) :
    step s = .next (writePlace Config.env p w v (Claims.taken s rest)) := by
  rw [step_write h hoff hp, hostWrite, busy_taken, hidle, if_neg Bool.false_ne_true]

/-- While busy a write is dropped and sets HZ (R39, R350). -/
theorem step_write_busy (hbusy : s.busy = true)
    (h : Claims.HostMoves s (.write (busAddr Config.params off) w v) rest)
    (hoff : off < 0x80000) (hp : placeOf Config.params off w = some p) :
    step s = .next { Claims.taken s rest with hz := true } := by
  rw [step_write h hoff hp, hostWrite, busy_taken, hbusy, if_pos rfl]

/-- While idle a read replies what its place holds and changes nothing (R90). -/
theorem step_read_idle (hidle : s.busy = false)
    (h : Claims.HostMoves s (.read (busAddr Config.params off) w) rest)
    (hoff : off < 0x80000) (hp : placeOf Config.params off w = some p) :
    step s = .next ((Claims.taken s rest).reply (readPlace Config.env (Claims.taken s rest) p w)) := by
  rw [step_read h hoff hp, hostRead, busy_taken, hidle, if_neg (by simp)]

/-- While idle a 32-bit write of the register page writes the register there (R36, R89). -/
theorem step_writeReg_idle (hidle : s.busy = false)
    (h : Claims.HostMoves s (.write (busAddr Config.params off) .b4 v) rest)
    (hoff : off < 0x10000) (h4 : off % 4 = 0) :
    step s = .next (writeReg Config.env (regAt off) v (Claims.taken s rest)) :=
  step_write_idle hidle h (by omega) (placeOf_reg _ hoff h4)

end

end Sys2Proof.Machine

namespace Sys2Proof

open Machine

/-- Settles O10: CMD lies at offset 0 of the register page, and its step is that of any write or read there. -/
theorem cmdWriteIssuesOrIsDropped : Obligations.CmdWriteIssuesOrIsDropped := by
  have hcmd : placeOf Config.params 0 .b4 = some (.reg 0) := placeOf_reg _ (by decide) rfl
  refine ⟨fun s v rest h => ⟨fun hidle => ⟨Config.freeDuration s.busDraw, ?_⟩, fun hbusy => ?_⟩,
    fun s rest h hidle => ?_⟩
  · exact step_writeReg_idle hidle h (by decide) rfl
  · exact step_write_busy hbusy h (by decide) hcmd
  · exact step_read_idle hidle h (by decide) hcmd

/-- Settles O16: each staging register takes its fields from the written word. -/
theorem stagingRegisterWrites : Obligations.StagingRegisterWrites := by
  refine fun s v rest hidle => ⟨fun h => ?_, fun h => ?_, fun h => ?_, fun h => ?_⟩
  · refine ⟨Clip.ofBit (v.getLsbD 0), FloatPolicy.ofBit (v.getLsbD 1),
      step_writeReg_idle hidle h (by decide) rfl, ?_, ?_, ctrlWord_writeCtrl v s⟩
    · rw [Clip.ofBit_eq_soft, getLsbD_iff, pow_zero, Nat.div_one]
    · rw [FloatPolicy.ofBit_eq_reject, getLsbD_iff, pow_one]
  · exact step_writeReg_idle hidle h (by decide) rfl
  · refine ⟨v.extractLsb' 0 8, v.extractLsb' 8 2, step_writeReg_idle hidle h (by decide) rfl, ?_, ?_,
      cfgFmtWord_writeCfgFmt v s⟩
    · rw [toNat_extractLsb', pow_zero, Nat.div_one]
      rfl
    · exact toNat_extractLsb' 8 2 v
  · exact step_writeReg_idle hidle h (by decide) rfl

/-- Settles O17: the step is `setOperand` of the register with one half replaced. -/
theorem operandRegisterWrites : Obligations.OperandRegisterWrites := by
  intro s n v rest hidle
  have hother : ∀ x m, m ≠ n → (s.setOperand n x).operand m = s.operand m := fun x m hm => by
    rw [operand_setOperand, if_neg hm.symm]
  have hsame : ∀ x, (s.setOperand n x).operand n = x := fun x => by rw [operand_setOperand, if_pos rfl]
  refine ⟨fun h => ⟨(s.setOperand n (setHalf .lo v (s.operand n))).opd, ?_, ?_, hother _⟩,
    fun h => ⟨(s.setOperand n (setHalf .hi v (s.operand n))).opd, ?_, ?_, hother _⟩⟩
  · rw [step_writeReg_idle hidle h (by omega) (by omega), regAt_opd_lo]
    rfl
  · exact (congrArg BitVec.toNat (hsame _)).trans (toNat_setHalf_lo v _)
  · rw [step_writeReg_idle hidle h (by omega) (by omega), regAt_opd_hi]
    rfl
  · exact (congrArg BitVec.toNat (hsame _)).trans (toNat_setHalf_hi v _)

/-- Settles O18: the step is a little-endian store at the offset. -/
theorem inputBufferWrites : Obligations.InputBufferWrites := by
  intro s off w v rest hidle hlo hmod hhi h
  have hoff : off < 0x80000 := by
    have := Config.params_ok.ibufBytes
    omega
  refine ⟨s.mem.writeLE off v w.bytes,
    step_write_idle hidle h hoff (placeOf_ibuf _ hlo hmod hhi), fun k hk => ?_, fun a ha => ?_⟩
  · rw [bufByte_writeLE, if_pos (by omega), Nat.add_sub_cancel_left]
    exact toNat_extractLsb' (8 * k) 8 v
  · rw [bufByte_writeLE, if_neg ha]

/-- Settles O19: the window of a bank holds its registers at their offsets, DLWIN the entries of the line. -/
theorem readbackWindows : Obligations.ReadbackWindows := by
  refine ⟨fun s i o v hv => ?_, fun s i _ => ?_⟩
  · rw [bankTable_eq] at hv
    obtain ⟨r, -, hr⟩ := List.mem_map.1 hv
    cases hr
    rw [readPlace, readPlace, regAt_bank_lo, regAt_bank_hi]
    exact ⟨toNat_halfWord_lo _, toNat_halfWord_hi _⟩
  · rw [readPlace, readPlace, dlwinWord_lo, dlwinWord_hi]
    exact ⟨toNat_halfWord_lo _, toNat_halfWord_hi _⟩

/-- Settles O20: each register's word as a number, and the buffers by their bytes. -/
theorem composedRegisterWords : Obligations.ComposedRegisterWords := by
  intro s
  obtain ⟨-, -, hibuf⟩ := Config.params_ok.ibufBytes
  obtain ⟨-, hobuf, -⟩ := Config.params_ok.obufBytes
  obtain ⟨-, hdlMax⟩ := Config.params_ok.dlMax
  refine ⟨rfl, toNat_statusWord s, toNat_ctrlWord s, rfl, rfl, toNat_cfgFmtWord s, rfl, rfl, rfl, rfl,
    toNat_actFmtWord s, rfl, rfl, rfl, rfl, ?_, ?_, ?_, fun n => ?_, fun off => ?_⟩
  · exact (BitVec.toNat_ofNat Config.params.dlMax 32).trans (Nat.mod_eq_of_lt (by omega))
  · exact (BitVec.toNat_ofNat Config.params.ibufBytes 32).trans (Nat.mod_eq_of_lt (by omega))
  · exact (BitVec.toNat_ofNat Config.params.obufBytes 32).trans (Nat.mod_eq_of_lt (by omega))
  · simp only [readPlace, regAt_opd_lo, regAt_opd_hi]
    exact ⟨toNat_halfWord_lo _, toNat_halfWord_hi _⟩
  · exact ⟨toNat_bufWord _ s off .b1, toNat_bufWord _ s off .b2, toNat_bufWord _ s off .b4,
      toNat_bufWord _ s off .b4⟩

end Sys2Proof
end

section
/-! Which state each command may write, and that a PROCESS reads no byte of the buffers but its input. -/

namespace Sys2Proof.Machine

/-! ### What the remaining commands can do -/

/-- `t` is `s` but for what PROCESS may write (R260). -/
def ProcessOnly (s t : State) : Prop :=
  t = { s with pending := none, fsm := t.fsm, err := t.err, outFrames := t.outFrames, outBytes := t.outBytes,
               fst := t.fst, dl := t.dl, dlWidx := t.dlWidx, dlRidx := t.dlRidx, mem := t.mem,
               nanDraw := t.nanDraw }

theorem processOnly_process (E : Env) (s : State) : ProcessOnly s (process E s) := by
  rcases process_cases E s with ⟨-, hp⟩ | ⟨-, -, hp⟩ | ⟨hfsm, hlen⟩
  · rw [hp]; rfl
  · rw [hp]; rfl
  · rw [process_accepted E hfsm hlen, frameOf_processFrames E (frameCount s) 0 s]
    rfl

/-- `t` is `s` but for what CONFIGURE may write (R255, R257). -/
def ConfigureOnly (s t : State) : Prop :=
  t = { s with pending := none, fsm := t.fsm, err := t.err, actFs := t.actFs, actCh := t.actCh,
               actEnc := t.actEnc, actClip := t.actClip, coef := t.coef, fst := t.fst, dlLen := t.dlLen,
               dlDelay := t.dlDelay, dl := t.dl, dlWidx := t.dlWidx, dlRidx := t.dlRidx }

theorem configureOnly_configure (E : Env) (s : State) : ConfigureOnly s (configure E s) := by
  rcases configure_cases E s with ⟨code, hc⟩ | ⟨ch, enc, -, hc⟩
  · rw [hc]; rfl
  · rw [hc]; rfl

/-- Frames leave every byte but their own output bytes as it was (R250, R251). -/
theorem bufByte_processFrames (E : Env) (k n : Nat) (s : State) (off : Nat)
    (h : ¬ (obufBase + n * (4 * s.actCh.count) ≤ off ∧ off < obufBase + (n + k) * (4 * s.actCh.count))) :
    bufByte E (processFrames E k n s) off = bufByte E s off := by
  induction k generalizing n s with
  | zero => rfl
  | succ k ih =>
    have hch : (processFrame E n s).actCh = s.actCh := by rw [frameOf_processFrame E n s]
    have hle : (n + 1) * (4 * s.actCh.count) ≤ (n + (k + 1)) * (4 * s.actCh.count) :=
      Nat.mul_le_mul_right _ (by omega)
    have hfrom : n * (4 * s.actCh.count) ≤ (n + 1) * (4 * s.actCh.count) := Nat.mul_le_mul_right _ (by omega)
    rw [processFrames, ih, bufByte_processFrame E n s off (by omega)]
    rw [hch, Nat.add_assoc, Nat.add_comm 1 k]
    omega

/-- PROCESS writes no byte below OBUF (R64, R65). -/
theorem bufByte_process_below (E : Env) (s : State) {off : Nat} (h : off < obufBase) :
    bufByte E (process E s) off = bufByte E s off := by
  rcases process_cases E s with ⟨-, hp⟩ | ⟨-, -, hp⟩ | ⟨hfsm, hlen⟩
  · rw [hp]; rfl
  · rw [hp]; rfl
  · rw [process_accepted E hfsm hlen]
    exact bufByte_processFrames E (frameCount s) 0 s off (by omega)

/-! ### Two states that differ in the buffers only -/

/-- The widener reads and writes no byte of the buffers (R206, R207). -/
theorem midSide_withMem (E : Env) (l r : F64) (s : State) (m : Memory) :
    midSide E l r { s with mem := m } = ((midSide E l r s).1, { (midSide E l r s).2 with mem := m }) := by
  simp only [midSide]
  split <;> rfl

theorem widenFrame_withMem (E : Env) (l r : F64) (s : State) (m : Memory) :
    widenFrame E l r { s with mem := m }
      = ((widenFrame E l r s).1, { (widenFrame E l r s).2 with mem := m }) := by
  cases hc : s.actCh with
  | mono => simp only [widenFrame, hc]
  | stereo =>
    have hmid := midSide_withMem E l r s m
    rw [hc] at hmid
    simp only [widenFrame, hc, hmid]

/-- From the decoded pair to the limiter a frame reads and writes no byte of the buffers (R250). -/
theorem frameWide_withMem (E : Env) (n : Nat) (s : State) {m : Memory}
    (hd : decodeFrame E n { s with mem := m } = decodeFrame E n s) :
    frameWide E n { s with mem := m } = ((frameWide E n s).1, { (frameWide E n s).2 with mem := m }) := by
  have hgained : frameGained E n { s with mem := m } = frameGained E n s := by
    rw [frameGained, hd]
    rfl
  have hleft : frameLeft E n { s with mem := m }
      = ((frameLeft E n s).1, { (frameLeft E n s).2 with mem := m }) := by
    rw [frameLeft, hgained]
    rfl
  have hright : frameRight E n { s with mem := m }
      = ((frameRight E n s).1, { (frameRight E n s).2 with mem := m }) := by
    rw [frameRight, hgained, hleft]
    rfl
  rw [frameWide, hleft, hright]
  exact widenFrame_withMem E _ _ _ m

theorem bufByte_frameWide (E : Env) (n : Nat) (s : State) (off : Nat) :
    bufByte E (frameWide E n s).2 off = bufByte E s off :=
  bufByte_congr E (by rw [frameWide_mem]) (by rw [frameOf_frameWide E n s])

/-- `t` is `s` but for the memory, and a byte of the buffers reads the same in both wherever `A` holds. -/
structure AgreeOn (E : Env) (A : Nat → Prop) (s t : State) : Prop where
  rest : t = { s with mem := t.mem }
  bytes : ∀ a, A a → bufByte E t a = bufByte E s a

namespace AgreeOn

variable {E : Env} {A B : Nat → Prop} {s t : State}

theorem mono (h : AgreeOn E A s t) (hBA : ∀ a, B a → A a) : AgreeOn E B s t :=
  ⟨h.rest, fun a ha => h.bytes a (hBA a ha)⟩

/-- One output sample reads no byte, and its own four agree afterwards. -/
theorem emit (h : AgreeOn E A s t) (o : Nat) (v : F64) :
    AgreeOn E (fun a => A a ∨ (obufBase + o ≤ a ∧ a < obufBase + o + 4)) (emit E o v s) (emit E o v t) := by
  obtain ⟨hrest, hbytes⟩ := h
  have hlimit : limit E v t = limit E v s := by rw [hrest]; rfl
  refine ⟨?_, fun a ha => ?_⟩
  · rw [Machine.emit, Machine.emit, hlimit, hrest]
    rfl
  · show bufByte E (obufWrite o (limit E v t) t) a = bufByte E (obufWrite o (limit E v s) s) a
    rw [bufByte_obufWrite, bufByte_obufWrite, hlimit]
    split
    · rfl
    · next hout => exact hbytes a (ha.resolve_right hout)

/-- The output stage of a frame reads no byte, and the frame's output bytes agree afterwards (R251). -/
theorem emitFrame (h : AgreeOn E A s t) (n : Nat) (l r : F64) :
    AgreeOn E
      (fun a => A a ∨ (obufBase + n * (4 * s.actCh.count) ≤ a ∧ a < obufBase + (n + 1) * (4 * s.actCh.count)))
      (emitFrame E n l r s) (emitFrame E n l r t) := by
  have hch : t.actCh = s.actCh := by rw [h.rest]
  cases hc : s.actCh with
  | mono =>
    rw [emitFrame_mono E n l r hc, emitFrame_mono E n l r (hch.trans hc)]
    exact (h.emit (n * 4) l).mono fun a ha => ha.imp_right fun hr => by
      simp only [Channels.count] at hr
      omega
  | stereo =>
    rw [emitFrame_stereo E n l r hc, emitFrame_stereo E n l r (hch.trans hc)]
    exact ((h.emit (n * 8) l).emit (n * 8 + 4) r).mono fun a ha => or_assoc.2 <| ha.imp_right fun hr => by
      simp only [Channels.count] at hr
      omega

/-- A sample that lies in the agreeing input decodes alike (R184). -/
theorem sampleAt (h : AgreeOn E A s t) (q : F64) {o : Nat}
    (hA : ∀ j, j < s.actEnc.bytes → A (ibufBase + (o + j))) : sampleAt E t q o = sampleAt E s q o := by
  have henc : t.actEnc = s.actEnc := by rw [h.rest]
  have hbyte : ∀ j, j < s.actEnc.bytes → bufByte E t (ibufBase + o + j) = bufByte E s (ibufBase + o + j) :=
    fun j hj => h.bytes _ (by rw [Nat.add_assoc]; exact hA j hj)
  cases hc : s.actEnc with
  | pcm16 =>
    simp only [hc, Enc.bytes] at hbyte
    simp only [Machine.sampleAt, henc, hc, ibufRead16, bufRead16, hbyte 1 (by decide)]
    rw [show bufByte E t (ibufBase + o) = bufByte E s (ibufBase + o) from hbyte 0 (by decide)]
  | pcmFloat =>
    simp only [hc, Enc.bytes] at hbyte
    simp only [Machine.sampleAt, henc, hc, ibufRead32, bufRead32, hbyte 1 (by decide), hbyte 2 (by decide),
      hbyte 3 (by decide)]
    rw [show bufByte E t (ibufBase + o) = bufByte E s (ibufBase + o) from hbyte 0 (by decide)]

/-- A frame is decoded from bytes of `IBUF[0 .. IN_LEN-1]` alone (R181, R184). -/
theorem decodeFrame (h : AgreeOn E A s t) (hA : ∀ o, o < s.inLen.toNat → A (ibufBase + o)) (n : Nat) :
    decodeFrame E n t = decodeFrame E n s := by
  have hlen : t.inLen = s.inLen := by rw [h.rest]
  have hch : t.actCh = s.actCh := by rw [h.rest]
  have henc : t.actEnc = s.actEnc := by rw [h.rest]
  have hfb : frameBytes t = frameBytes s := by rw [h.rest]; rfl
  have hq : ∀ i, nan64At E t i = nan64At E s i := fun i => by rw [h.rest]; rfl
  unfold Machine.decodeFrame
  rw [hlen, hfb, henc, hch]
  simp only [hq]
  split
  · rfl
  next hfit =>
  have hsample : ∀ q o, o + s.actEnc.bytes ≤ n * frameBytes s + frameBytes s →
      Machine.sampleAt E t q o = Machine.sampleAt E s q o := fun q o ho =>
    h.sampleAt q fun j hj => hA _ (by omega)
  have hbytes : frameBytes s = s.actCh.count * s.actEnc.bytes := rfl
  cases hc : s.actCh with
  | mono =>
    rw [hc, Channels.count, Nat.one_mul] at hbytes
    simp only [hsample _ (n * frameBytes s) (by omega)]
  | stereo =>
    rw [hc, Channels.count] at hbytes
    simp only [hsample _ (n * frameBytes s) (by omega),
      hsample _ (n * frameBytes s + s.actEnc.bytes) (by omega)]

/-- A frame reads no byte but its input, and its output bytes agree afterwards (R250, R251). -/
theorem processFrame (h : AgreeOn E A s t) (hA : ∀ o, o < s.inLen.toNat → A (ibufBase + o)) (n : Nat) :
    AgreeOn E
      (fun a => A a ∨ (obufBase + n * (4 * s.actCh.count) ≤ a ∧ a < obufBase + (n + 1) * (4 * s.actCh.count)))
      (processFrame E n s) (processFrame E n t) := by
  have hd := h.decodeFrame hA n
  rw [h.rest] at hd
  have hwide : frameWide E n t = ((frameWide E n s).1, { (frameWide E n s).2 with mem := t.mem }) := by
    rw [← frameWide_withMem E n s hd, ← h.rest]
  have hagree : AgreeOn E A (frameWide E n s).2 (frameWide E n t).2 := by
    refine ⟨by rw [hwide], fun a ha => ?_⟩
    rw [bufByte_frameWide, bufByte_frameWide, h.bytes a ha]
  have hch : (frameWide E n s).2.actCh = s.actCh := by rw [frameOf_frameWide E n s]
  have hemit := hagree.emitFrame n (frameWide E n s).1.1 (frameWide E n s).1.2
  rw [hch] at hemit
  rw [processFrame_eq, processFrame_eq, show (frameWide E n t).1 = (frameWide E n s).1 by rw [hwide]]
  exact hemit

/-- Any number of frames: all their output bytes agree afterwards (R260). -/
theorem processFrames (k n : Nat) {A : Nat → Prop} {s t : State} (h : AgreeOn E A s t)
    (hA : ∀ o, o < s.inLen.toNat → A (ibufBase + o)) :
    AgreeOn E
      (fun a => A a ∨ (obufBase + n * (4 * s.actCh.count) ≤ a ∧ a < obufBase + (n + k) * (4 * s.actCh.count)))
      (processFrames E k n s) (processFrames E k n t) := by
  induction k generalizing n A s t with
  | zero => exact h.mono fun a ha => ha.resolve_right fun hr => absurd hr.2 hr.1.not_gt
  | succ k ih =>
    have hf := frameOf_processFrame E n s
    have hlen : (Machine.processFrame E n s).inLen = s.inLen := by rw [hf]
    have hch : (Machine.processFrame E n s).actCh = s.actCh := by rw [hf]
    have hframes := ih (n + 1) (h.processFrame hA n) fun o ho => .inl (hA o (by rwa [hlen] at ho))
    refine hframes.mono fun a ha => or_assoc.2 (ha.imp_right fun hr => ?_)
    rw [hch, Nat.add_assoc, Nat.add_comm 1 k]
    omega

end AgreeOn

end Sys2Proof.Machine

namespace Sys2Proof

open Machine

/-- Settles O44: command by command, from what each may write. -/
theorem commandsWriteOnlyTheirOwnState : Obligations.CommandsWriteOnlyTheirOwnState := by
  intro i s t ht
  rw [exec_eq_result] at ht
  cases ht
  cases i with
  | nop => simp [result, nop, bufByte]
  | configure => rw [result, configureOnly_configure]; simp [bufByte]
  | process =>
    have hbelow : ∀ off, off < obufBase →
        bufByte Config.env (process Config.env s) off = bufByte Config.env s off :=
      fun off => bufByte_process_below Config.env s
    rw [result]
    refine ⟨?_, hbelow, ?_⟩ <;> rw [processOnly_process] <;> simp
  | flush => simp [result, flush, bufByte]
  | reset => simp [result, resetCommand, bufByte]
  | ldcoef stage => rw [result, coefOnly_ldcoef]; simp [bufByte]
  | setls stage => rw [result, coefOnly_setls]; simp [bufByte]
  | seths stage => rw [result, coefOnly_seths]; simp [bufByte]
  | setpk stage => rw [result, coefOnly_setpk]; simp [bufByte]

/-- Settles O34: the two states agree on the input before the frames, and on input and output after them. -/
theorem processReadsOnlyItsInput : Obligations.ProcessReadsOnlyItsInput := by
  intro s t t' m hinput ht ht' hok
  rw [exec_eq_result] at ht ht'
  cases ht
  cases ht'
  rcases process_cases Config.env s with ⟨-, hp⟩ | ⟨-, -, hp⟩ | ⟨hfsm, hlen⟩
  · rw [result, hp] at hok; cases hok
  · rw [result, hp] at hok; cases hok
  have hstart : AgreeOn Config.env (fun a => ∃ o < s.inLen.toNat, a = ibufBase + o) s { s with mem := m } :=
    ⟨rfl, by rintro _ ⟨o, ho, rfl⟩; exact (hinput o ho).symm⟩
  obtain ⟨hrest, hbytes⟩ := hstart.processFrames (frameCount s) 0 fun o ho => ⟨o, ho, rfl⟩
  rw [result, result, process_accepted Config.env hfsm hlen,
    process_accepted Config.env (s := { s with mem := m }) hfsm hlen]
  refine ⟨?_, fun o ho => hbytes _ (.inr ?_)⟩
  · rw [show frameCount { s with mem := m } = frameCount s from rfl, hrest]
    rfl
  · have hle : o < frameCount s * s.actCh.count * 4 := ho.trans_le (Nat.mod_le _ _)
    rw [Nat.mul_assoc, Nat.mul_comm s.actCh.count] at hle
    rw [Nat.zero_add]
    omega

end Sys2Proof
end

section
/-! What a legal host may expect of a step: which accesses are legal and where they land, what an event may
change, when a command runs, and how the bytes of the input are read as frames. -/

namespace Sys2Proof.Machine

/-! ### Where every access lands -/

/-- A word-aligned 32-bit access of DLWIN (R81, R86). -/
theorem placeOf_dlwin (P : Params) {off : Nat} (hlo : 0x10000 ≤ off) (hhi : off < 0x20000) (h4 : off % 4 = 0) :
    placeOf P off .b4 = some (.dlwin off) := by
  rw [placeOf, if_pos hhi, if_pos ⟨rfl, h4⟩, if_neg hlo.not_gt]

/-- A word-aligned 32-bit access of OBUF, which IBUF does not reach (R9, R82, R86). -/
theorem placeOf_obuf {P : Params} (hP : P.Ok) {off : Nat} (hlo : 0x40000 ≤ off) (h4 : off % 4 = 0)
    (hhi : off + 4 ≤ 0x40000 + P.obufBytes) : placeOf P off .b4 = some (.obuf off) := by
  obtain ⟨-, -, hibuf⟩ := hP.ibufBytes
  rw [placeOf, if_neg (by omega), if_neg (by omega), if_pos ⟨hlo, rfl, h4, hhi⟩]

/-- A legal access lands at the place its offset names (R81, R82, R86). -/
theorem placeOf_of_legal {P : Params} (hP : P.Ok) {off : Nat} {w : Width} (h : LegalOffset P off w) :
    placeOf P off w = some (Claims.placeAt off) := by
  have hw : 0 < w.bytes := by cases w <;> decide
  obtain ⟨-, -, hibuf⟩ := hP.ibufBytes
  rcases h with ⟨hhi, rfl, h4⟩ | ⟨hlo, hmod, hhi⟩ | ⟨hlo, rfl, h4, hhi⟩
  · rcases Nat.lt_or_ge off 0x10000 with hreg | hdlwin
    · rw [Claims.placeAt, if_pos hreg, placeOf_reg P hreg h4]
    · rw [Claims.placeAt, if_neg hdlwin.not_gt, if_pos hhi, placeOf_dlwin P hdlwin hhi h4]
  · rw [Claims.placeAt, if_neg (by omega), if_neg (by omega), if_pos (by omega)]
    exact placeOf_ibuf P hlo hmod hhi
  · rw [Claims.placeAt, if_neg (by omega), if_neg (by omega), if_neg (by omega)]
    exact placeOf_obuf hP hlo h4 hhi

/-- Only a legal access has a place (R86, R88). -/
theorem legalOffset_of_placeOf {P : Params} {off : Nat} {w : Width} {p : Place}
    (h : placeOf P off w = some p) : LegalOffset P off w := by
  unfold placeOf at h
  split_ifs at h with hreg hword _ hibuf hin hobuf
  · exact .inl ⟨hreg, hword⟩
  · exact .inl ⟨hreg, hword⟩
  · exact .inr (.inl ⟨Nat.le_of_not_lt hreg, hin⟩)
  · exact .inr (.inr hobuf)

/-- An access in the window that is not legal is a bus error (R87, R88). -/
theorem locate_of_not_legal {P : Params} {off : Nat} {w : Width} (hoff : off < 0x80000)
    (h : ¬ LegalOffset P off w) : locate P (busAddr P off) w = .error (.busError (busAddr P off) w) := by
  have hnone : placeOf P off w = none := Option.eq_none_iff_forall_ne_some.2 fun p hp =>
    h (legalOffset_of_placeOf hp)
  simp only [locate, busAddr, windowOffset_busAddr P off hoff, hnone]

/-! ### When an event faults -/

/-- An event the host may cause is served (R308). -/
theorem exists_hostEvent_of_legal {E : Env} (hP : E.P.Ok) {ev : Input} (h : ev.Legal E.P) (s : State) :
    ∃ t, hostEvent E ev s = .next t := by
  cases ev with
  | read addr w =>
    obtain ⟨off, hoff, rfl, hlegal⟩ := h
    rw [hostEvent, locate_busAddr hoff (placeOf_of_legal hP hlegal)]
    exact ⟨_, rfl⟩
  | write addr w v =>
    obtain ⟨off, hoff, rfl, hlegal⟩ := h
    rw [hostEvent, locate_busAddr hoff (placeOf_of_legal hP hlegal)]
    exact ⟨_, rfl⟩
  | wait => exact ⟨_, rfl⟩
  | powerOn => exact ⟨_, rfl⟩

/-- No event is refused: an access is served or a fault (R308). -/
theorem hostEvent_ne_refused (E : Env) (ev : Input) (s : State) (r : Refusal) :
    hostEvent E ev s ≠ .refused r := by
  cases ev with
  | read addr w => rw [hostEvent]; split <;> exact nofun
  | write addr w v => rw [hostEvent]; split <;> exact nofun
  | wait => exact nofun
  | powerOn => exact nofun

/-! ### What an event changes -/

/-- `t` is `s` after an event of the host: the staging, the operands, the bytes of IBUF and the host's own side
may have changed, nothing of it but HZ and the host's side while a command is in progress, and HZ only then
(R90, R350). -/
structure HostFrame (E : Env) (s t : State) : Prop where
  staging : t = { s with pending := t.pending, hz := t.hz, ctrlClip := t.ctrlClip, ctrlFloat := t.ctrlFloat,
                         cfgFs := t.cfgFs, cfgCh := t.cfgCh, cfgEnc := t.cfgEnc, inLen := t.inLen,
                         opd := t.opd, mem := t.mem, inputs := t.inputs, replies := t.replies,
                         busDraw := t.busDraw }
  bytes : ∀ off, ¬ (ibufBase ≤ off ∧ off < ibufBase + E.P.ibufBytes) → bufByte E t off = bufByte E s off
  busy : s.busy = true →
    t = { s with hz := t.hz, inputs := t.inputs, replies := t.replies, busDraw := t.busDraw }
  idle : s.busy = false → t.hz = s.hz

namespace HostFrame

variable {E : Env} {s t : State}

/-- An event that reaches the host's side alone. -/
theorem of_hostSide
    (h : t = { s with inputs := t.inputs, replies := t.replies, busDraw := t.busDraw }) : HostFrame E s t := by
  rw [h]
  exact ⟨rfl, fun _ _ => rfl, fun _ => rfl, fun _ => rfl⟩

theorem hostRead (p : Place) (w : Width) : HostFrame E s (hostRead E p w s) :=
  of_hostSide (by rw [hostRead_frame])

theorem hostWait : HostFrame E s (hostWait s) := by
  refine of_hostSide ?_
  unfold Machine.hostWait
  split <;> rfl

/-- A write of a register reaches no byte and leaves HZ. -/
theorem writeReg (hidle : s.busy = false) (r : Reg) (v : Word) : HostFrame E s (writeReg E r v s) := by
  have hbusy : ∀ {P : Prop}, s.busy = true → P := fun h => absurd h (by simp [hidle])
  cases r <;> exact ⟨rfl, fun _ _ => rfl, hbusy, fun _ => rfl⟩

/-- A legal write of IBUF stores inside it (R82, R86). -/
theorem writeIbuf (hidle : s.busy = false) {off : Nat} {w : Width} (v : Word) (hlo : 0x20000 ≤ off)
    (hhi : off + w.bytes ≤ 0x20000 + E.P.ibufBytes) :
    HostFrame E s { s with mem := s.mem.writeLE off v w.bytes } where
  staging := rfl
  bytes a ha := by
    rw [ibufBase] at ha
    rw [bufByte_writeLE, if_neg (by omega)]
  busy h := absurd h (by simp [hidle])
  idle _ := rfl

theorem hostWrite {addr : Word} {w : Width} {p : Place} (v : Word) (hp : locate E.P addr w = .ok p) :
    HostFrame E s (hostWrite E p w v s) := by
  unfold Machine.hostWrite
  split
  · next hbusy => exact ⟨rfl, fun _ _ => rfl, fun _ => rfl, fun h => absurd hbusy (by simp [h])⟩
  next hbusy =>
  have hidle : s.busy = false := Bool.eq_false_iff.2 hbusy
  cases p with
  | reg off => exact writeReg hidle (regAt off) v
  | dlwin off => exact of_hostSide rfl
  | obuf off => exact of_hostSide rfl
  | ibuf off =>
    obtain ⟨hlo, hhi⟩ := ibuf_bounds_of_locate hp
    exact writeIbuf hidle v hlo hhi

theorem hostEvent {ev : Input} (h : hostEvent E ev s = .next t) (hev : ev ≠ .powerOn) : HostFrame E s t := by
  rcases hostEvent_cases h with
    ⟨addr, w, p, -, -, rfl⟩ | ⟨addr, w, v, p, -, hp, rfl⟩ | ⟨-, rfl⟩ | ⟨hpower, -⟩
  · exact hostRead p w
  · exact hostWrite v hp
  · exact hostWait
  · exact absurd hpower hev

end HostFrame

/-- A write leaves the events still to come. -/
theorem hostWrite_inputs (E : Env) (p : Place) (w : Width) (v : Word) (s : State) :
    (hostWrite E p w v s).inputs = s.inputs := by
  unfold hostWrite
  split
  · rfl
  cases p with
  | reg off => rw [writePlace]; cases regAt off <;> rfl
  | dlwin off => rfl
  | ibuf off => rfl
  | obuf off => rfl

/-- The events still to come stay, but for a WAIT that polls again (R120). -/
theorem hostEvent_inputs {E : Env} {ev : Input} {s t : State} (h : hostEvent E ev s = .next t) :
    t.inputs = s.inputs ∨ t.inputs = .wait :: s.inputs := by
  rcases hostEvent_cases h with ⟨addr, w, p, -, -, rfl⟩ | ⟨addr, w, v, p, -, -, rfl⟩ | ⟨-, rfl⟩ | ⟨-, rfl⟩
  · exact .inl (by rw [hostRead_frame])
  · exact .inl (hostWrite_inputs E p w v s)
  · unfold hostWait
    split
    · exact .inr rfl
    · exact .inl rfl
  · exact .inl rfl

/-! ### What a step does -/

/-- Whose move it is: nothing is due, the host's next event, or the command in progress (R92, R356). -/
theorem move_cases (s : State) :
    (s.pending = none ∧ s.inputs = []) ∨ (∃ ev rest, Claims.HostMoves s ev rest) ∨
    (∃ c, s.pending = some c ∧ (c.hold = 0 ∨ s.inputs = [])) := by
  cases hi : s.inputs with
  | nil =>
    cases hp : s.pending with
    | none => exact .inl ⟨rfl, rfl⟩
    | some c => exact .inr (.inr ⟨c, rfl, .inr rfl⟩)
  | cons ev rest =>
    by_cases hheld : ∀ c, s.pending = some c → 0 < c.hold
    · exact .inr (.inl ⟨ev, rest, hi, hheld⟩)
    · push Not at hheld
      obtain ⟨c, hp, hhold⟩ := hheld
      exact .inr (.inr ⟨c, hp, .inl (Nat.le_zero.1 hhold)⟩)

/-- With no command and no event a step does nothing (R331). -/
theorem step_idle {s : State} (hp : s.pending = none) (hi : s.inputs = []) : step s = .next s := by
  simp [step, nextAction, hp, hi]

/-- A command that is due completes (R310). -/
theorem step_command {s : State} {c : Pending} (hp : s.pending = some c) (hdue : c.hold = 0 ∨ s.inputs = []) :
    step s = runCommand c.word s := by
  obtain ⟨w, k⟩ := c
  cases k with
  | zero => simp [step, nextAction, hp]
  | succ k =>
    have hi : s.inputs = [] := hdue.resolve_left (Nat.succ_ne_zero k)
    simp [step, nextAction, hp, hi]

/-- A command word leaves the events still to come. -/
theorem wordResult_inputs (w : Word) (s : State) : (wordResult w s).inputs = s.inputs := by
  unfold wordResult
  split
  · next i _ =>
    obtain ⟨⟨-, -, -, -, -, -, -, hinputs, -⟩, -⟩ := commandsWriteOnlyTheirOwnState i s _ (exec_eq_result i s)
    exact hinputs
  · rfl

@[simp] theorem statusWord_taken (s : State) (rest : List Input) :
    statusWord (Claims.taken s rest) = statusWord s := by
  simp only [statusWord, busy_taken]
  rfl

/-! ### Registers without an effect -/

/-- A write of a word of the register page that is not CMD, CTRL, CFG_FS, CFG_FMT, IN_LEN or OPD is ignored
(R43, R89). -/
theorem writeReg_regAt_of_readOnly (E : Env) (v : Word) (s : State) {off : Nat} (h4 : off % 4 = 0)
    (hcmd : off ≠ 0x00) (hctrl : off ≠ 0x08) (hfs : off ≠ 0x10) (hfmt : off ≠ 0x14) (hlen : off ≠ 0x18)
    (hopd : ¬ (0x80 ≤ off ∧ off < 0xA8)) : writeReg E (regAt off) v s = s := by
  by_cases hsingle : off < 0x48
  · rw [regAt, if_pos hsingle]
    have hword : off / 4 ∈ [1, 3, 7, 8, 9, 10, 11, 12, 13, 14, 15, 16, 17] := by
      simp only [List.mem_cons, List.not_mem_nil, or_false]
      omega
    generalize off / 4 = k at hword
    fin_cases hword <;> rfl
  rw [regAt, if_neg hsingle, dif_neg hopd]
  split
  · cases bankRegOf ((off - 0x100) % 0x80) <;> rfl
  · rfl

/-- The gaps of a stage bank (R67). -/
theorem bankRegOf_eq_none {o : Nat} (h : (0x28 ≤ o ∧ o < 0x40) ∨ 0x60 ≤ o) : bankRegOf o = none := by
  unfold bankRegOf
  split
  case h_10 => rfl
  all_goals omega

/-- The reserved words of the register page (R67, R89). -/
theorem regAt_eq_reserved {off : Nat}
    (h : (0x48 ≤ off ∧ off < 0x80) ∨ (0xA8 ≤ off ∧ off < 0x100) ∨ 0x400 ≤ off ∨
      (0x100 ≤ off ∧ off < 0x400 ∧ 0x28 ≤ off % 0x80 ∧ off % 0x80 < 0x40) ∨
      (0x100 ≤ off ∧ off < 0x400 ∧ 0x60 ≤ off % 0x80)) : regAt off = .reserved := by
  rw [regAt, if_neg (by omega), dif_neg (by omega)]
  split
  · rw [bankRegOf_eq_none (by omega)]
  · rfl

end Sys2Proof.Machine

namespace Sys2Proof

open Machine

/-- Settles O8: a step does nothing, serves the host's event or runs a word; of these only an access that is
not legal faults. -/
theorem legalHostNeverFaults : Obligations.LegalHostNeverFaults := by
  intro s
  rcases move_cases s with ⟨hp, hi⟩ | ⟨ev, rest, h⟩ | ⟨c, hp, hdue⟩
  · rw [step_idle hp hi]
    exact ⟨nofun, nofun, fun hsafe => ⟨s, rfl, hsafe⟩⟩
  · have hserved : ev.Legal Config.params → ∃ t, hostEvent Config.env ev (Claims.taken s rest) = .next t :=
      fun hlegal => exists_hostEvent_of_legal (E := Config.env) Config.params_ok hlegal _
    rw [step_of_hostMoves h]
    obtain ⟨hin, -⟩ := h
    refine ⟨hostEvent_ne_refused _ _ _, fun f hf => ⟨ev, rest, hin, fun hlegal => ?_⟩, fun hsafe => ?_⟩
    · obtain ⟨t, ht⟩ := hserved hlegal
      rw [ht] at hf
      cases hf
    · rw [State.Safe, hin, List.forall_mem_cons] at hsafe
      obtain ⟨hlegal, hrest⟩ := hsafe
      obtain ⟨t, ht⟩ := hserved hlegal
      refine ⟨t, ht, ?_⟩
      rcases hostEvent_inputs ht with hinputs | hinputs
      · rw [State.Safe, hinputs]
        exact hrest
      · rw [State.Safe, hinputs]
        exact List.forall_mem_cons.2 ⟨trivial, hrest⟩
  · rw [step_command hp hdue, runCommand_eq]
    refine ⟨nofun, nofun, fun hsafe => ⟨_, rfl, ?_⟩⟩
    rwa [State.Safe, wordResult_inputs]

/-- Settles O13: such an access has no place, and an event without a place is the bus error. -/
theorem illegalAccessIsBusError : Obligations.IllegalAccessIsBusError := by
  intro s off w v rest hoff hillegal
  have hloc : locate Config.env.P (busAddr Config.params off) w
      = .error (.busError (busAddr Config.params off) w) := locate_of_not_legal hoff hillegal
  refine ⟨fun h => ?_, fun h => ?_⟩ <;> rw [step_of_hostMoves h, hostEvent, hloc]

/-- Settles O14: the step is the event, whose frame is `HostFrame`. -/
theorem hostAccessesTouchOnlyStaging : Obligations.HostAccessesTouchOnlyStaging := by
  intro s t ev rest h hev ht
  rw [step_of_hostMoves h] at ht
  obtain ⟨hstaging, hbytes, hbusy, hidle⟩ := HostFrame.hostEvent ht hev
  rw [busy_taken] at hbusy hidle
  have hkept : s.busy = true → t.busy = true ∧ t.ctrlClip = s.ctrlClip ∧ t.ctrlFloat = s.ctrlFloat ∧
      t.cfgFs = s.cfgFs ∧ t.cfgCh = s.cfgCh ∧ t.cfgEnc = s.cfgEnc ∧ t.inLen = s.inLen ∧ t.opd = s.opd ∧
      t.mem = s.mem := fun hb => by
    rw [hbusy hb]
    exact ⟨(busy_taken s rest).trans hb, rfl, rfl, rfl, rfl, rfl, rfl, rfl, rfl⟩
  refine ⟨?_, ?_, ?_, ?_, ?_, ?_, ?_, ?_, ?_, ?_, ?_, ?_, ?_, ?_, ?_, ?_, ?_, hbytes, hkept, hidle⟩ <;>
    rw [hstaging] <;> rfl

/-- Settles O15: such a write reaches a register, DLWIN or OBUF that ignores it, such a read CMD or a reserved
word. -/
theorem readOnlyOffsetsIgnoreWrites : Obligations.ReadOnlyOffsetsIgnoreWrites := by
  intro s off rest hidle h4
  refine ⟨fun v h hoff => ?_, fun h hoff => ?_⟩
  · rcases hoff with ⟨hhi, hcmd, hctrl, hfs, hfmt, hlen, hopd⟩ | ⟨hlo, hhi⟩
    · rcases Nat.lt_or_ge off 0x10000 with hreg | hdlwin
      · rw [step_writeReg_idle hidle h hreg h4, writeReg_regAt_of_readOnly _ _ _ h4 hcmd hctrl hfs hfmt hlen hopd]
      · exact step_write_idle hidle h (by omega) (placeOf_dlwin _ hdlwin hhi h4)
    · obtain ⟨-, hobuf, -⟩ := Config.params_ok.obufBytes
      exact step_write_idle hidle h (by omega) (placeOf_obuf Config.params_ok hlo h4 hhi)
  · have hzero : readReg Config.env.P (Claims.taken s rest) (regAt off) = 0 := by
      rcases hoff with rfl | hoff
      · rfl
      · rw [regAt_eq_reserved (by omega)]
        rfl
    rw [step_read_idle hidle h (by omega) (placeOf_reg _ (by omega) h4), readPlace, hzero]
    rfl

/-- Settles O6: a command that is due runs its word, and the word runs what it decodes to. -/
theorem stepRunsTheDecodedCommand : Obligations.StepRunsTheDecodedCommand := by
  intro s c i hp hdue hdecode
  rw [step_command hp hdue, runCommand, hdecode]

/-- Settles O7: the host's move is its event, WAIT among them. -/
theorem stepServesTheNextEvent : Obligations.StepServesTheNextEvent := by
  refine ⟨fun s ev rest h => step_of_hostMoves h, fun s hp hi => step_idle hp hi, fun s rest h => ?_⟩
  refine ⟨statusWord s, toNat_statusWord s, ?_⟩
  rw [step_of_hostMoves h, hostEvent, hostWait, statusWord_taken, busy_taken, State.busy]
  split <;> rfl

end Sys2Proof
end

section
/-! How a frame of the input is decoded (R180, R181, R184, R185). -/

namespace Sys2Proof.Machine

/-- A sample of an encoding at an offset of IBUF: its bytes, little-endian, converted (R83, R184). -/
def IsSampleAt (E : Env) (s : State) (o : Nat) (r : F64) : Prop :=
  (s.actEnc = .pcm16 → ∃ v : BitVec 16, v.toNat = Claims.bytesLE E s (0x20000 + o) 2 ∧ r = pcm16ToFp v) ∧
  (s.actEnc = .pcmFloat → ∃ (w : F32) (q : F64), w.toNat = Claims.bytesLE E s (0x20000 + o) 4 ∧
    F64.isNaN q = true ∧ r = pcmfToFp q w)

/-- Two bytes of IBUF are read little-endian (R85). -/
theorem toNat_ibufRead16 (E : Env) (s : State) (o : Nat) :
    (ibufRead16 E s o).toNat = Claims.bytesLE E s (0x20000 + o) 2 := by
  have h := toNat_bufWord E s (0x20000 + o) .b2
  rwa [bufWord, BitVec.toNat_setWidth_of_le (by decide)] at h

/-- Four bytes of IBUF are read little-endian (R85). -/
theorem toNat_ibufRead32 (E : Env) (s : State) (o : Nat) :
    (ibufRead32 E s o).toNat = Claims.bytesLE E s (0x20000 + o) 4 :=
  toNat_bufWord E s (0x20000 + o) .b4

theorem isSampleAt_sampleAt (E : Env) (s : State) (i o : Nat) :
    IsSampleAt E s o (sampleAt E s (nan64At E s i) o) := by
  refine ⟨fun henc => ⟨_, toNat_ibufRead16 E s o, ?_⟩,
    fun henc => ⟨_, nan64At E s i, toNat_ibufRead32 E s o, F64.isNaN_nanOf _, ?_⟩⟩
  · rw [sampleAt, henc]
  · rw [sampleAt, henc]

/-- A frame that reaches past IN_LEN is silence (R185). -/
theorem decodeFrame_short (E : Env) {n : Nat} {s : State}
    (h : s.inLen.toNat < n * frameBytes s + frameBytes s) : decodeFrame E n s = (F64.zero, F64.zero) :=
  if_pos h

/-- The pair of a whole frame (R184). -/
theorem decodeFrame_whole (E : Env) {n : Nat} {s : State}
    (h : n * frameBytes s + frameBytes s ≤ s.inLen.toNat) :
    (decodeFrame E n s).1 = sampleAt E s (nan64At E s 0) (n * frameBytes s) ∧
    (s.actCh = .mono → (decodeFrame E n s).2 = (decodeFrame E n s).1) ∧
    (s.actCh = .stereo → (decodeFrame E n s).2
      = sampleAt E s (nan64At E s 1) (n * frameBytes s + s.actEnc.bytes)) := by
  simp only [decodeFrame, if_neg h.not_gt]
  cases s.actCh with
  | mono => exact ⟨rfl, fun _ => rfl, nofun⟩
  | stereo => exact ⟨rfl, nofun, fun _ => rfl⟩

theorem Enc.bytes_eq_ite (e : Enc) : e.bytes = if e = .pcm16 then 2 else 4 := by cases e <;> rfl

end Sys2Proof.Machine

namespace Sys2Proof

open Machine

/-- Settles O52: with `FB` and `SB` read as the model's frame and sample bytes, the pair is the model's. -/
theorem frameDecoding : Obligations.FrameDecoding := by
  intro E n s
  rw [← Enc.bytes_eq_ite s.actEnc]
  refine ⟨fun hshort => decodeFrame_short E hshort, fun hwhole => ?_⟩
  obtain ⟨hleft, hmono, hstereo⟩ := decodeFrame_whole E hwhole
  refine ⟨?_, hmono, fun hch => ?_⟩
  · rw [hleft]
    exact isSampleAt_sampleAt E s 0 _
  · rw [hstereo hch]
    exact isSampleAt_sampleAt E s 1 _

end Sys2Proof
end

section
/-! The command word: its fields as numbers, the ends that `decode` can come to, and the words it accepts
(R110 to R115). -/

namespace Sys2Proof

/-! ### The fields of a command word -/

theorem toNat_opcField (w : Word) : (opcField w).toNat = w.toNat % 256 := by
  have h := Machine.toNat_extractLsb' 0 8 w
  rwa [pow_zero, Nat.div_one] at h

theorem toNat_stageField (w : Word) : (stageField w).toNat = w.toNat / 256 % 8 :=
  Machine.toNat_extractLsb' 8 3 w

theorem toNat_rsvField (w : Word) : (rsvField w).toNat = w.toNat / 2048 := by
  have hw := w.isLt
  rw [rsvField, Machine.toNat_extractLsb']
  exact Nat.mod_eq_of_lt (by omega)

theorem rsvField_eq_zero_iff (w : Word) : rsvField w = 0 ↔ w.toNat / 2048 = 0 := by
  rw [← toNat_rsvField, ← BitVec.toNat_inj]
  rfl

/-- A word is its three fields (R110). -/
theorem append_fields (w : Word) : rsvField w ++ stageField w ++ opcField w = w := by
  refine BitVec.eq_of_toNat_eq ?_
  rw [Machine.toNat_append, Machine.toNat_append, toNat_rsvField, toNat_stageField, toNat_opcField]
  omega

theorem encode_eq_iff {i : Instr} {w : Word} :
    encode i = w ↔ rsvField w = 0 ∧ opcField w = i.opc ∧ stageField w = i.stage := by
  constructor
  · rintro rfl
    obtain ⟨hopc, hstage, hrsv⟩ := Laws.EncodedFields.fields_append i.stage i.opc
    exact ⟨hrsv, hopc, hstage⟩
  · rintro ⟨hrsv, hopc, hstage⟩
    rw [encode, ← hrsv, ← hopc, ← hstage, append_fields]

/-! ### What `decode` can answer -/

/-- The commands that take no stage, in the order of their opcodes 0x00 to 0x04 (R112). -/
def plainCommands : List Instr := [.nop, .configure, .process, .flush, .reset]

/-- The coefficient commands on a stage, in the order of their opcodes 0x10 to 0x13 (R112). -/
def coefCommands (stage : BitVec 3) : List Instr := [.ldcoef stage, .setls stage, .seths stage, .setpk stage]

/-- The ends of the decoder: reserved bits, one of the two checks of the stage, or a reserved opcode (R113). -/
theorem decode_cases (w : Word) :
    (rsvField w ≠ 0 ∧ decode w = .error .reservedBits) ∨
    (∃ i, rsvField w = 0 ∧ plainCommands[(opcField w).toNat]? = some i ∧
      decode w = plainCommand (stageField w) i) ∨
    (∃ i, rsvField w = 0 ∧ 0x10 ≤ (opcField w).toNat ∧
      (coefCommands (stageField w))[(opcField w).toNat - 0x10]? = some i ∧
      decode w = stageCommand (stageField w) i) ∨
    (rsvField w = 0 ∧ (5 ≤ (opcField w).toNat ∧ (opcField w).toNat < 0x10 ∨ 0x14 ≤ (opcField w).toNat) ∧
      decode w = .error .reservedOpcode) := by
  by_cases hrsv : rsvField w = 0
  swap
  · exact .inl ⟨hrsv, by rw [decode, if_pos hrsv]⟩
  simp only [decode, hrsv, ne_eq, not_true_eq_false, if_false, true_and, false_and, false_or]
  generalize opcField w = opc
  split_ifs with h0 h1 h2 h3 h4 h10 h11 h12 h13
  · exact .inl ⟨.nop, by rw [h0]; rfl, rfl⟩
  · exact .inl ⟨.configure, by rw [h1]; rfl, rfl⟩
  · exact .inl ⟨.process, by rw [h2]; rfl, rfl⟩
  · exact .inl ⟨.flush, by rw [h3]; rfl, rfl⟩
  · exact .inl ⟨.reset, by rw [h4]; rfl, rfl⟩
  · exact .inr (.inl ⟨.ldcoef _, by rw [h10]; decide, by rw [h10]; rfl, rfl⟩)
  · exact .inr (.inl ⟨.setls _, by rw [h11]; decide, by rw [h11]; rfl, rfl⟩)
  · exact .inr (.inl ⟨.seths _, by rw [h12]; decide, by rw [h12]; rfl, rfl⟩)
  · exact .inr (.inl ⟨.setpk _, by rw [h13]; decide, by rw [h13]; rfl, rfl⟩)
  · exact .inr (.inr ⟨by bv_omega, rfl⟩)

theorem plainCommand_eq_ok_iff {stage : BitVec 3} {i j : Instr} :
    plainCommand stage i = .ok j ↔ stage = 0 ∧ i = j := by
  unfold plainCommand
  split_ifs with h
  · simp [h]
  · exact ⟨nofun, fun hi => absurd hi.1 h⟩

theorem stageCommand_eq_ok_iff {stage : BitVec 3} {i j : Instr} :
    stageCommand stage i = .ok j ↔ stageOk stage = true ∧ i = j := by
  unfold stageCommand
  split_ifs with h
  · simp [h]
  · exact ⟨nofun, fun hi => absurd hi.1 h⟩

theorem plainCommand_toOption (stage : BitVec 3) (i : Instr) :
    (plainCommand stage i).toOption = if stage.toNat ≠ 0 then none else some i := by
  have hzero : stage.toNat = 0 ↔ stage = 0 := BitVec.toNat_inj (y := 0)
  by_cases h : stage = 0
  · rw [h]
    rfl
  · rw [plainCommand, if_neg h, if_pos (hzero.not.2 h)]
    rfl

theorem stageCommand_toOption (stage : BitVec 3) (i : Instr) :
    (stageCommand stage i).toOption = if 5 < stage.toNat then none else some i := by
  have hok : stageOk stage = true ↔ stage.toNat ≤ 5 := decide_eq_true_iff
  by_cases h : stage.toNat ≤ 5
  · rw [stageCommand, if_pos (hok.2 h), if_neg h.not_gt]
    rfl
  · rw [stageCommand, if_neg (hok.not.2 h), if_pos (not_le.1 h)]
    rfl

/-- A plain command stands at its opcode, and its word has no stage (R111, R112). -/
theorem plainCommands_getElem? {k : Nat} {i : Instr} (h : plainCommands[k]? = some i) :
    i.opc.toNat = k ∧ i.stage = 0 ∧ i.WellFormed := by
  obtain ⟨hk, rfl⟩ := List.getElem?_eq_some_iff.1 h
  change k < 5 at hk
  interval_cases k <;> exact ⟨rfl, rfl, rfl⟩

/-- A coefficient command stands at its opcode less 0x10, and its word has its stage (R111, R112). -/
theorem coefCommands_getElem? {stage : BitVec 3} {k : Nat} {i : Instr}
    (h : (coefCommands stage)[k]? = some i) :
    i.opc.toNat = 0x10 + k ∧ i.stage = stage ∧ i.wellFormed = stageOk stage := by
  obtain ⟨hk, rfl⟩ := List.getElem?_eq_some_iff.1 h
  change k < 4 at hk
  interval_cases k <;> exact ⟨rfl, rfl, rfl⟩

/-- What decodes is well-formed, and its fields are those of the word. -/
theorem fields_of_decode {w : Word} {i : Instr} (h : decode w = .ok i) :
    i.WellFormed ∧ rsvField w = 0 ∧ opcField w = i.opc ∧ stageField w = i.stage := by
  rcases decode_cases w with ⟨-, hd⟩ | ⟨j, hrsv, hj, hd⟩ | ⟨j, hrsv, hlo, hj, hd⟩ | ⟨-, -, hd⟩
  · cases hd.symm.trans h
  · obtain ⟨hzero, rfl⟩ := plainCommand_eq_ok_iff.1 (hd.symm.trans h)
    obtain ⟨hopc, hstage, hwf⟩ := plainCommands_getElem? hj
    exact ⟨hwf, hrsv, BitVec.eq_of_toNat_eq hopc.symm, hzero.trans hstage.symm⟩
  · obtain ⟨hok, rfl⟩ := stageCommand_eq_ok_iff.1 (hd.symm.trans h)
    obtain ⟨hopc, hstage, hwf⟩ := coefCommands_getElem? hj
    exact ⟨hwf.trans hok, hrsv, BitVec.eq_of_toNat_eq (by omega), hstage.symm⟩
  · cases hd.symm.trans h

/-- A word with the fields of a well-formed command decodes to it (R111 to R113). -/
theorem decode_of_fields {w : Word} {i : Instr} (hwf : i.WellFormed) (hrsv : rsvField w = 0)
    (hopc : opcField w = i.opc) (hstage : stageField w = i.stage) : decode w = .ok i := by
  simp only [decode, hopc, hstage, hrsv]
  cases i with
  | nop | configure | process | flush | reset => rfl
  | ldcoef stage | setls stage | seths stage | setpk stage => exact stageCommand_eq_ok_iff.2 ⟨hwf, rfl⟩

theorem decode_eq_ok_iff {w : Word} {i : Instr} :
    decode w = .ok i ↔ i.WellFormed ∧ rsvField w = 0 ∧ opcField w = i.opc ∧ stageField w = i.stage :=
  ⟨fields_of_decode, fun ⟨hwf, hrsv, hopc, hstage⟩ => decode_of_fields hwf hrsv hopc hstage⟩

/-- Settles O1: a word decodes to a well-formed command when it has the command's fields, and then it is the
command's word. -/
theorem decodeAcceptsExactlyTheEncodedCommands : Obligations.DecodeAcceptsExactlyTheEncodedCommands :=
  fun _ _ => decode_eq_ok_iff.trans (and_congr_right' encode_eq_iff.symm)

/-- Settles O2: each end of the decoder is one branch of the rule. -/
theorem decodeFollowsItsRule : Obligations.DecodeFollowsItsRule := by
  intro w opc stage rsv s
  have hopc : (opcField w).toNat = opc := toNat_opcField w
  have hstage : (stageField w).toNat = stage := toNat_stageField w
  have hs : stageField w = s := BitVec.eq_of_toNat_eq (by rw [hstage, BitVec.toNat_ofNat]; omega)
  have hrsv : rsvField w = 0 ↔ rsv = 0 := rsvField_eq_zero_iff w
  rcases decode_cases w with ⟨hne, hd⟩ | ⟨i, hz, hi, hd⟩ | ⟨i, hz, hlo, hi, hd⟩ | ⟨hz, hreserved, hd⟩
  · rw [hd, if_pos (hrsv.not.1 hne)]
    rfl
  · rw [hopc] at hi
    have hbound : opc ≤ 4 := Nat.le_of_lt_succ (List.getElem?_eq_some_iff.1 hi).1
    rw [if_neg (not_not_intro (hrsv.1 hz)), if_pos hbound, hd, plainCommand_toOption, hstage, ← hi]
    rfl
  · rw [hopc] at hlo hi
    have hbound : opc - 0x10 < 4 := (List.getElem?_eq_some_iff.1 hi).1
    rw [if_neg (not_not_intro (hrsv.1 hz)), if_neg (by omega), if_pos (by omega), hd,
      stageCommand_toOption, hstage, ← hi, hs]
    rfl
  · rw [hopc] at hreserved
    rw [if_neg (not_not_intro (hrsv.1 hz)), if_neg (by omega), if_neg (by omega), hd]
    rfl

/-! ### The reserved encodings -/

/-- The reserved encodings, on the fields of the word as numbers (R115). -/
def IsReserved (w : Word) : Prop :=
  let opc := w.toNat % 256
  let stage := w.toNat / 256 % 8
  (0x05 ≤ opc ∧ opc ≤ 0x0F) ∨ 0x14 ≤ opc ∨ w.toNat / 2048 ≠ 0 ∨
    (0x10 ≤ opc ∧ opc ≤ 0x13 ∧ 6 ≤ stage) ∨ (opc ≤ 0x04 ∧ stage ≠ 0)

theorem exists_error_iff_toOption {ε α : Type} (x : Except ε α) :
    (∃ e, x = .error e) ↔ x.toOption = none := by
  cases x with
  | error e => exact ⟨fun _ => rfl, fun _ => ⟨e, rfl⟩⟩
  | ok a => exact ⟨nofun, nofun⟩

/-- The words that do not decode are the reserved encodings: each branch of the rule of O2 answers nothing
exactly on them. -/
theorem isReserved_iff_decode_error (w : Word) : IsReserved w ↔ ∃ e, decode w = .error e := by
  rw [exists_error_iff_toOption, decodeFollowsItsRule w, IsReserved]
  split_ifs with hrsv hplain hstage hcoef hout
  · exact iff_of_true (by omega) rfl
  · exact iff_of_true (by omega) rfl
  · refine iff_of_false (by omega) ?_
    rw [List.getElem?_eq_none_iff, not_le]
    exact Nat.lt_succ_of_le hplain
  · exact iff_of_true (by omega) rfl
  · refine iff_of_false (by omega) ?_
    rw [List.getElem?_eq_none_iff, not_le]
    exact Nat.sub_lt_left_of_lt_add hcoef.1 (Nat.lt_succ_of_le hcoef.2)
  · exact iff_of_true (by omega) rfl

/-- Settles O3: the step of a due word is the word's run, which is ILLEGAL when it does not decode. -/
theorem illegalWordOnlySetsErr : Obligations.IllegalWordOnlySetsErr := by
  intro s w e hp he
  rw [Machine.step_command hp (.inl rfl), Machine.runCommand, he]
  rfl

/-- Settles O4: the reserved encodings are the words that do not decode, whose step is that of O3. -/
theorem reservedEncodingsAreTheIllegalOnes : Obligations.ReservedEncodingsAreTheIllegalOnes := by
  intro s w hp
  refine (isReserved_iff_decode_error w).trans ⟨?_, And.right⟩
  rintro ⟨e, he⟩
  exact ⟨illegalWordOnlySetsErr s w e hp he, e, he⟩

/-- Settles O5: nine closed words, evaluated. -/
theorem workedEncodingsDecode : Obligations.WorkedEncodingsDecode := by
  unfold Obligations.WorkedEncodingsDecode
  decide

end Sys2Proof
end

section
/-! Every stored filter output is snapped: the snap makes it so, and only PROCESS, CONFIGURE, FLUSH, RESET and a
power-on write a filter history (R147, R148). -/

namespace Sys2Proof.Machine

theorem snapped_zero : F64.Snapped F64.zero := .inl rfl

/-- Denormal suppression answers a snapped value (R148). -/
theorem snapped_snap (t : F64) : (snap t).Snapped := by
  unfold snap
  split
  · exact snapped_zero
  · next hfloor => exact .inr (Bool.eq_false_iff.2 hfloor)

/-! ### The histories outside the filter -/

/-- The widener writes no filter history (R206, R207). -/
theorem widenFrame_fst (E : Env) (l r : F64) (s : State) : (widenFrame E l r s).2.fst = s.fst := by
  cases hc : s.actCh with
  | mono => rw [widenFrame_mono E l r hc]
  | stereo =>
    rw [widenFrame_stereo E l r hc]
    by_cases h0 : s.dlLen = 0
    · rw [midSide_zeroLength E l r s h0, State.tick_fst]
    · rw [midSide_delay E l r s h0]

/-- The output stage writes no filter history (R251). -/
theorem emitFrame_fst (E : Env) (n : Nat) (l r : F64) (s : State) : (emitFrame E n l r s).fst = s.fst := by
  have hemit : ∀ o v t, (emit E o v t).fst = t.fst := fun o v t => by
    rw [emit, State.tick_fst, obufWrite_fst]
  unfold emitFrame
  split
  · exact hemit _ l s
  · rw [hemit, hemit]

/-- After its two chains a frame writes no filter history (R250). -/
theorem processFrame_fst (E : Env) (n : Nat) (s : State) :
    (processFrame E n s).fst = (frameRight E n s).2.fst := by
  rw [processFrame_eq, emitFrame_fst, frameWide, widenFrame_fst]

/-! ### The invariant, operation by operation -/

namespace State.FstSnapped

variable {s t : State}

/-- The invariant speaks of the filter histories alone. -/
theorem congr (h : s.FstSnapped) (hfst : t.fst = s.fst) : t.FstSnapped := by
  intro i
  rw [State.fstAt, hfst]
  exact h i

theorem of_coefOnly (h : s.FstSnapped) (ht : CoefOnly s t) : t.FstSnapped :=
  h.congr (by rw [ht])

/-- Cleared histories hold `+0.0` alone (R60). -/
theorem of_clearFst (hfst : t.fst = (Machine.clearFst s).fst) : t.FstSnapped := by
  have hcleared : (Machine.clearFst s).FstSnapped := fun i => by
    rw [fstAt_clearFst]
    exact ⟨snapped_zero, snapped_zero⟩
  exact hcleared.congr hfst

/-- A stage stores its snapped output, and its former first output as the second (R147). -/
theorem biquadStep (h : s.FstSnapped) (E : Env) (i : Fin 6) (x : F64) : (biquadStep E i x s).2.FstSnapped := by
  intro j
  rw [biquadStep_fstAt]
  split
  · exact ⟨snapped_snap _, (h i).1⟩
  · exact h j

theorem biquadChain (h : s.FstSnapped) (E : Env) (ch : Fin 2) (x : F64) :
    (biquadChain E ch x s).2.FstSnapped :=
  ((h.biquadStep E (stageOf ch 0) x).biquadStep E (stageOf ch 1) _).biquadStep E (stageOf ch 2) _

theorem processFrame (h : s.FstSnapped) (E : Env) (n : Nat) : (processFrame E n s).FstSnapped := by
  have hgained : ((s.tick 2).tick 2).FstSnapped := h.congr rfl
  have hleft : (frameLeft E n s).2.FstSnapped := hgained.biquadChain E 0 _
  have hright : (frameRight E n s).2.FstSnapped := hleft.biquadChain E 1 _
  exact hright.congr (processFrame_fst E n s)

theorem processFrames (E : Env) (k n : Nat) {s : State} (h : s.FstSnapped) :
    (processFrames E k n s).FstSnapped := by
  induction k generalizing n s with
  | zero => exact h
  | succ k ih => exact ih (n + 1) (h.processFrame E n)

/-! ### The invariant, command by command and event by event -/

theorem process (h : s.FstSnapped) (E : Env) : (process E s).FstSnapped := by
  rcases process_cases E s with ⟨-, hp⟩ | ⟨-, -, hp⟩ | ⟨hfsm, hlen⟩
  · rw [hp]; exact h.congr rfl
  · rw [hp]; exact h.congr rfl
  · rw [process_accepted E hfsm hlen]
    exact (processFrames E (frameCount s) 0 h).congr rfl

theorem configure (h : s.FstSnapped) (E : Env) : (configure E s).FstSnapped := by
  rcases configure_cases E s with ⟨code, hc⟩ | ⟨ch, enc, -, hc⟩
  · rw [hc]; exact h.congr rfl
  · rw [hc]; exact of_clearFst (s := s) rfl

theorem result (h : s.FstSnapped) (i : Instr) : (result i s).FstSnapped := by
  cases i with
  | nop => exact h.of_coefOnly (coefOnly_complete .ok s)
  | configure => exact h.configure Config.env
  | process => exact h.process Config.env
  | flush => exact of_clearFst (s := s) rfl
  | reset => exact of_clearFst (s := s) rfl
  | ldcoef stage => exact h.of_coefOnly (coefOnly_ldcoef stage s)
  | setls stage => exact h.of_coefOnly (coefOnly_setls _ stage s)
  | seths stage => exact h.of_coefOnly (coefOnly_seths _ stage s)
  | setpk stage => exact h.of_coefOnly (coefOnly_setpk _ stage s)

theorem wordResult (h : s.FstSnapped) (w : Word) : (wordResult w s).FstSnapped := by
  unfold Machine.wordResult
  split
  · exact h.result _
  · exact h.congr rfl

/-- The host reaches the histories by a power-on alone, which clears them (R90, R340). -/
theorem hostEvent {E : Env} {ev : Input} (ht : hostEvent E ev s = .next t) (h : s.FstSnapped) :
    t.FstSnapped := by
  by_cases hev : ev = .powerOn
  · subst hev
    cases ht
    exact of_clearFst (s := s) rfl
  · exact h.congr (by rw [(HostFrame.hostEvent ht hev).staging])

end State.FstSnapped

end Sys2Proof.Machine

namespace Sys2Proof

open Machine in
/-- Settles O47: a step is nothing, one event from outside or one command, and each of these keeps the
histories snapped. -/
theorem stepKeepsFilterOutputsSnapped : Obligations.StepKeepsFilterOutputsSnapped := by
  intro s t h ht
  rcases step_cases ht with ⟨-, -, rfl⟩ | ⟨ev, rest, -, -, he⟩ | ⟨w, k, ev, rest, -, -, he⟩ | ⟨c, -, -, rfl⟩
  · exact h
  · exact State.FstSnapped.hostEvent he (h.congr rfl)
  · exact State.FstSnapped.hostEvent he (h.congr rfl)
  · exact h.wordResult c.word

end Sys2Proof
end

section
/-! The coefficient commands: their words, the stage they act on, and what the designer's contract says in exact
values (R111 to R113, R146, R150 to R153). -/

namespace Sys2Proof

/-! ### Comparisons by exact value -/

namespace F64

/-- The ordered comparison of two values that are not NaN compares their exact values. -/
theorem lt_iff_val {a b : F64} (ha : isNaN a = false) (hb : isNaN b = false) :
    lt a b = true ↔ val a < val b := by
  rw [lt_iff_key ha hb, val_lt_val_iff]

theorem zero_lt_iff_val {x : F64} (hx : isFinite x = true) : lt zero x = true ↔ 0 < val x := by
  have hzero : val zero = 0 := val_eq_zero.2 (by decide)
  rw [lt_iff_val (by decide) (isNaN_of_isFinite hx), hzero]

theorem pos_iff_val {x : F64} : x.Pos ↔ isFinite x = true ∧ 0 < val x :=
  and_congr_right zero_lt_iff_val

/-- Half of a finite rate is no NaN: the divisor is 2. -/
theorem isNaN_nyquist {fs : F64} (h : isFinite fs = true) : isNaN (nyquist fs) = false := by
  rw [nyquist, div_of_isFinite _ h (by decide) (by decide), isNaN_pack_roundMag]

end F64

/-! ### The word of a command -/

/-- The word of a well-formed command, as its opcode and its stage as numbers (R110 to R112). -/
theorem decode_ofNat_of_wellFormed {i : Instr} (hwf : i.WellFormed) :
    decode (BitVec.ofNat 32 (i.opc.toNat + 0x100 * i.stage.toNat)) = .ok i := by
  have hopc := i.opc.isLt
  have hstage := i.stage.isLt
  have hword : (BitVec.ofNat 32 (i.opc.toNat + 0x100 * i.stage.toNat)).toNat
      = i.opc.toNat + 0x100 * i.stage.toNat := by
    rw [BitVec.toNat_ofNat]
    exact Nat.mod_eq_of_lt (by omega)
  refine decode_of_fields hwf ?_ (BitVec.eq_of_toNat_eq ?_) (BitVec.eq_of_toNat_eq ?_)
  · rw [rsvField_eq_zero_iff, hword]
    omega
  · rw [toNat_opcField, hword]
    omega
  · rw [toNat_stageField, hword]
    omega

namespace Machine

/-! ### The stage of a command -/

theorem onStage_of_toNat_eq {stage : BitVec 3} {i : Fin 6} (h : stage.toNat = i.val)
    (f : Fin 6 → State → State) (s : State) : onStage stage f s = f i s := by
  have hindex : stageIndex stage = some i := by
    rw [stageIndex, dif_pos (by omega)]
    exact congrArg some (Fin.ext h)
  rw [onStage, hindex]

/-- Stages 6 and 7 do not exist (R111, R113). -/
theorem onStage_of_six_le {stage : BitVec 3} (h : 6 ≤ stage.toNat) (f : Fin 6 → State → State) (s : State) :
    onStage stage f s = s.raise .illegal := by
  rw [onStage, stageIndex, dif_neg (by omega)]

theorem stageOk_of_toNat_eq {stage : BitVec 3} {i : Fin 6} (h : stage.toNat = i.val) : stageOk stage = true :=
  decide_eq_true (by omega)

/-! ### The designer commands -/

/-- `designer_ok` as the list of its conditions, in the order of the rule (R146). -/
theorem designerOk_iff {k : Kind} {freq fs gain q : F64} :
    designerOk k freq fs gain q = true ↔
      F64.isFinite freq = true ∧ F64.isFinite fs = true ∧ F64.isFinite gain = true ∧
      F64.lt F64.zero fs = true ∧ F64.lt F64.zero freq = true ∧ F64.lt freq (F64.nyquist fs) = true ∧
      F64.lt F64.zero gain = true ∧ (k = .pk → q.Pos) := by
  cases k <;> simp [designerOk, and_assoc]

theorem designInto_of_ok (E : Env) {k : Kind} {q : F64} (i : Fin 6) {s : State}
    (h : designerOk k (s.operand 0) (s.operand 1) (s.operand 2) q = true) :
    designInto E k q i s
      = (s.setCoef i (E.P.design k (s.operand 0) (s.operand 1) (s.operand 2) q)).complete .ok :=
  if_pos h

theorem designInto_of_not_ok (E : Env) {k : Kind} {q : F64} (i : Fin 6) {s : State}
    (h : designerOk k (s.operand 0) (s.operand 1) (s.operand 2) q = false) :
    designInto E k q i s = s.raise .contract :=
  if_neg (by simp [h])

/-- The three designer commands on a stage, with the opcode, the kind and the `Q` of each (R151 to R153). -/
def IsDesigner (s : State) (stage : BitVec 3) (cmd : Instr) (opc : Nat) (k : Kind) (q : F64) : Prop :=
  (cmd = .setls stage ∧ opc = 0x11 ∧ k = .ls ∧ q = F64.zero) ∨
  (cmd = .seths stage ∧ opc = 0x12 ∧ k = .hs ∧ q = F64.zero) ∨
  (cmd = .setpk stage ∧ opc = 0x13 ∧ k = .pk ∧ q = s.operand 3)

section

variable {s : State} {stage : BitVec 3} {cmd : Instr} {opc : Nat} {k : Kind} {q : F64}

theorem IsDesigner.fields (h : IsDesigner s stage cmd opc k q) :
    cmd.opc.toNat = opc ∧ cmd.stage = stage ∧ cmd.wellFormed = stageOk stage := by
  rcases h with ⟨rfl, rfl, -, -⟩ | ⟨rfl, rfl, -, -⟩ | ⟨rfl, rfl, -, -⟩ <;> exact ⟨rfl, rfl, rfl⟩

theorem IsDesigner.exec (h : IsDesigner s stage cmd opc k q) :
    exec cmd s = .next (onStage stage (designInto Config.env k q) s) := by
  rcases h with ⟨rfl, -, rfl, rfl⟩ | ⟨rfl, -, rfl, rfl⟩ | ⟨rfl, -, rfl, rfl⟩ <;> rfl

end

end Machine

open Machine

/-- Settles O38: LDCOEF acts on the stage that its word names. -/
theorem ldcoefEffect : Obligations.LdcoefEffect := by
  intro s stage
  have hexec : exec (.ldcoef stage) s
      = .next (onStage stage (fun i s => (s.setCoef i (operandCoef s)).complete .ok) s) := rfl
  refine ⟨fun i hi => ⟨?_, ?_⟩, fun h6 => ?_⟩
  · rw [← hi]
    exact decode_ofNat_of_wellFormed (i := .ldcoef stage) (stageOk_of_toNat_eq hi)
  · rw [hexec, onStage_of_toNat_eq hi]
    rfl
  · rw [hexec, onStage_of_six_le h6]
    rfl

/-- Settles O39: the three commands are one command, `designInto`, on the stage that the word names. -/
theorem designerCommandsEffect : Obligations.DesignerCommandsEffect := by
  intro s stage cmd opc k q h
  have hcmd : IsDesigner s stage cmd opc k q := h
  obtain ⟨hopc, hstage, hwf⟩ := hcmd.fields
  refine ⟨fun i hi => ⟨?_, fun hok => ?_, fun hbad => ?_⟩, fun h6 => ?_⟩
  · rw [← hi, ← hopc, ← hstage]
    exact decode_ofNat_of_wellFormed (hwf.trans (stageOk_of_toNat_eq hi))
  · rw [hcmd.exec, onStage_of_toNat_eq hi, designInto_of_ok Config.env i hok]
    rfl
  · rw [hcmd.exec, onStage_of_toNat_eq hi, designInto_of_not_ok Config.env i hbad]
    rfl
  · rw [hcmd.exec, onStage_of_six_le h6]
    rfl

open F64 in
/-- Settles O40: between values that are not NaN, `fs / 2` among them, each comparison of the contract compares
exact values. -/
theorem designerContract : Obligations.DesignerContract := by
  intro k freq fs gain q
  refine designerOk_iff.trans <|
    and_congr_right fun hfreq => and_congr_right fun hfs => and_congr_right fun hgain => ?_
  rw [zero_lt_iff_val hfs, zero_lt_iff_val hfreq, zero_lt_iff_val hgain,
    lt_iff_val (isNaN_of_isFinite hfreq) (isNaN_nyquist hfs), pos_iff_val]
  rfl

end Sys2Proof
end

section
/-! The designer's target at a gain of 1: the terms of the numerator and of the denominator coincide (R141, R143
to R145). -/

namespace Sys2Proof.Designer

/-- Numerator and denominator have the same terms, so that the response is the identity. -/
structure Terms.Cancel (t : Terms ℝ) : Prop where
  a0r_ne : t.a0r ≠ 0
  n0_eq : t.n0 = t.a0r
  n1_eq : t.n1 = t.d1
  n2_eq : t.n2 = t.d2

theorem IsQuotient.identity {t : Terms ℝ} {r : RealCoef} (h : IsQuotient t r) (ht : t.Cancel) :
    r.a0 = 1 ∧ r.a1 = r.b1 ∧ r.a2 = r.b2 := by
  obtain ⟨ha0, ha1, ha2, hb1, hb2⟩ := h
  refine ⟨?_, ?_, ?_⟩
  · rw [ha0, ht.n0_eq, div_self ht.a0r_ne]
  · rw [ha1, hb1, ht.n1_eq]
  · rw [ha2, hb2, ht.n2_eq]

/-- Both shelves have `a0r = 2 + beta` at `A = 1`. -/
theorem lowShelfTerms_cancel {beta : ℝ} (h : 0 < beta) (c : ℝ) : (lowShelfTerms 1 beta c).Cancel where
  a0r_ne := by simp only [lowShelfTerms]; linarith
  n0_eq := by simp only [lowShelfTerms]; ring
  n1_eq := by simp only [lowShelfTerms]; ring
  n2_eq := by simp only [lowShelfTerms]; ring

theorem highShelfTerms_cancel {beta : ℝ} (h : 0 < beta) (c : ℝ) : (highShelfTerms 1 beta c).Cancel where
  a0r_ne := by simp only [highShelfTerms]; linarith
  n0_eq := by simp only [highShelfTerms]; ring
  n1_eq := by simp only [highShelfTerms]; ring
  n2_eq := by simp only [highShelfTerms]; ring

theorem peakingTerms_cancel {alpha : ℝ} (h : 0 < alpha) (c : ℝ) : (peakingTerms 1 alpha c).Cancel where
  a0r_ne := by simp only [peakingTerms]; linarith
  n0_eq := by simp only [peakingTerms]; ring
  n1_eq := rfl
  n2_eq := by simp only [peakingTerms]; ring

/-- Below the Nyquist frequency the angle `w0` lies between 0 and π. -/
theorem sin_angle_pos {freq fs : ℝ} (hfreq : 0 < freq) (hnyquist : freq < fs / 2) :
    0 < Real.sin (2 * Real.pi * freq / fs) := by
  have hfs : 0 < fs := by linarith
  refine Real.sin_pos_of_pos_of_lt_pi (by positivity) ?_
  rw [div_lt_iff₀ hfs]
  nlinarith [Real.pi_pos]

end Sys2Proof.Designer

namespace Sys2Proof

open Designer in
/-- Settles O41: at a gain of 1 the terms cancel, because `sin w0` is positive. -/
theorem unitGainDesignIsIdentity : Obligations.UnitGainDesignIsIdentity := by
  intro k freq fs Q r hfreq hnyquist hQ h
  have hsin := sin_angle_pos hfreq hnyquist
  unfold IsTarget at h
  simp only [Real.sqrt_one] at h
  cases k with
  | ls => exact h.identity (lowShelfTerms_cancel (by positivity) _)
  | hs => exact h.identity (highShelfTerms_cancel (by positivity) _)
  | pk =>
    have hQ := hQ rfl
    exact h.identity (peakingTerms_cancel (by positivity) _)

end Sys2Proof
end

section
/-! One filter step: the rule's sum with the model's draws, and the sum of the identity stage (R147, R155). -/

namespace Sys2Proof.F64

/-! ### Operands that leave a value as it is -/

theorem key_eq_of_val_eq {a b : F64} (h : val a = val b) : key a = key b :=
  le_antisymm (not_lt.1 (mt val_lt_val_iff.2 h.not_gt)) (not_lt.1 (mt val_lt_val_iff.2 h.not_lt))

theorem natAbs_key (x : F64) : (key x).natAbs = mag x := by
  unfold key
  split <;> simp

theorem sign_eq_decide_key {x : F64} (h0 : mag x ≠ 0) : sign x = decide (key x < 0) := by
  unfold key
  cases sign x with
  | false => simp
  | true => simpa using Nat.pos_of_ne_zero h0

/-- A value other than zero has one pattern. -/
theorem eq_of_val_eq {a b : F64} (h : val a = val b) (h0 : val b ≠ 0) : a = b := by
  have hkey := key_eq_of_val_eq h
  have ha : mag a ≠ 0 := mt val_eq_zero.2 (h ▸ h0)
  have hb : mag b ≠ 0 := mt val_eq_zero.2 h0
  refine ext_sign_mag ?_ ?_
  · rw [sign_eq_decide_key ha, sign_eq_decide_key hb, hkey]
  · rw [← natAbs_key a, ← natAbs_key b, hkey]

theorem val_one : val one = 1 := by
  have h := (ofNat_exact (n := 1) (by decide)).2
  rwa [Nat.cast_one, show ofNat 1 = one by decide +kernel] at h

section

variable {a b : F64} (q : F64)

theorem one_mul_exact (hb : isFinite b = true) : isFinite (mul q one b) = true ∧ val (mul q one b) = val b := by
  have h := rounds64_mul q (a := one) (by decide) hb
  rw [val_one, one_mul] at h
  exact eq_val_of_rounds64 hb h

theorem zero_mul_exact (hb : isFinite b = true) : isFinite (mul q zero b) = true ∧ val (mul q zero b) = 0 := by
  have hzero : val zero = 0 := val_eq_zero.2 (by decide)
  have h := rounds64_mul q (a := zero) (by decide) hb
  rw [hzero, zero_mul, ← hzero] at h
  rw [← hzero]
  exact eq_val_of_rounds64 (by decide) h

theorem add_zero_exact (ha : isFinite a = true) (hb : isFinite b = true) (h0 : val b = 0) :
    isFinite (add q a b) = true ∧ val (add q a b) = val a := by
  have h := rounds64_add q ha hb
  rw [h0, add_zero] at h
  exact eq_val_of_rounds64 ha h

theorem sub_zero_exact (ha : isFinite a = true) (hb : isFinite b = true) (h0 : val b = 0) :
    isFinite (sub q a b) = true ∧ val (sub q a b) = val a := by
  have h := rounds64_sub q ha hb
  rw [h0, sub_zero] at h
  exact eq_val_of_rounds64 ha h

end

end Sys2Proof.F64

namespace Sys2Proof.Machine

/-- The coefficients of the identity stage (R155). -/
def coefIdentity : Coef := ⟨F64.one, F64.zero, F64.zero, F64.zero, F64.zero⟩

/-- The sum of the identity stage has the value of its input; a zero may change its sign (R155). -/
theorem val_biquadSum_identity (q : Nat → F64) {h : Hist} {x : F64} (hx : F64.isFinite x = true)
    (hx1 : F64.isFinite h.x1 = true) (hx2 : F64.isFinite h.x2 = true) (hy1 : F64.isFinite h.y1 = true)
    (hy2 : F64.isFinite h.y2 = true) : F64.val (biquadSum q coefIdentity h x) = F64.val x := by
  obtain ⟨hf0, hv0⟩ := F64.one_mul_exact (q 0) hx
  obtain ⟨hm1, hz1⟩ := F64.zero_mul_exact (q 1) hx1
  obtain ⟨hm2, hz2⟩ := F64.zero_mul_exact (q 3) hx2
  obtain ⟨hm3, hz3⟩ := F64.zero_mul_exact (q 5) hy1
  obtain ⟨hm4, hz4⟩ := F64.zero_mul_exact (q 7) hy2
  obtain ⟨hf1, hv1⟩ := F64.add_zero_exact (q 2) hf0 hm1 hz1
  obtain ⟨hf2, hv2⟩ := F64.add_zero_exact (q 4) hf1 hm2 hz2
  obtain ⟨hf3, hv3⟩ := F64.sub_zero_exact (q 6) hf2 hm3 hz3
  obtain ⟨-, hv4⟩ := F64.sub_zero_exact (q 8) hf3 hm4 hz4
  exact hv4.trans (hv3.trans (hv2.trans (hv1.trans hv0)))

/-- A zero of either sign becomes `+0.0` (R147). -/
theorem snap_of_val_eq_zero {x : F64} (h : F64.val x = 0) : snap x = F64.zero := by
  have hmag : F64.mag x = 0 := F64.val_eq_zero.1 h
  have hfloor : F64.lt (F64.abs x) F64.denormFloor = true := by
    rw [F64.lt_iff_key (by simp [F64.isNaN, hmag]) (by decide), F64.key_abs, hmag]
    decide
  rw [snap, if_pos hfloor]

/-- The snap does not see the sign of a zero: it depends on the exact value alone. -/
theorem snap_congr {x y : F64} (h : F64.val x = F64.val y) : snap x = snap y := by
  by_cases h0 : F64.val y = 0
  · rw [snap_of_val_eq_zero h0, snap_of_val_eq_zero (h.trans h0)]
  · rw [F64.eq_of_val_eq h h0]

end Sys2Proof.Machine

namespace Sys2Proof

open Machine

/-- Settles O49: the NaN patterns are the draws of the step's nine operations. -/
theorem biquadStepFollowsItsRule : Obligations.BiquadStepFollowsItsRule :=
  fun E _ _ s => ⟨nan64At E s, fun _ => F64.isNaN_nanOf _, rfl, rfl⟩

/-- Settles O50: the sum has the value of the input, and the snap sees no more of it. -/
theorem identityStagePassesItsInput : Obligations.IdentityStagePassesItsInput := by
  intro E i x s hcoef ⟨hx1, hx2, hy1, hy2⟩ hx
  have hsum := val_biquadSum_identity (nan64At E s) hx hx1 hx2 hy1 hy2
  calc (biquadStep E i x s).1
      = snap (biquadSum (nan64At E s) coefIdentity (s.fstAt i) x) := by rw [biquadStep, biquadOut, hcoef]; rfl
    _ = snap x := snap_congr hsum

end Sys2Proof
end

section
/-! Binary32 values: the sign and magnitude pattern of a word, its exact value, and the overflow threshold of
narrowing (R12, R186). -/

namespace Sys2Proof.F32

open Rounding

/-- The pattern of the largest finite magnitude. -/
def maxFiniteMag : Nat := 0x7F7FFFFF

theorem infMag_lt : infMag < 2 ^ 31 := by decide

theorem toNat_pack {m : Nat} (s : Bool) (h : m < 2 ^ 31) :
    (pack s m).toNat = m + if s then 2 ^ 31 else 0 := by
  rw [pack, BitVec.toNat_ofNat, Nat.mod_eq_of_lt]
  split <;> omega

@[simp] theorem sign_pack {m : Nat} (s : Bool) (h : m < 2 ^ 31) : sign (pack s m) = s := by
  rw [sign, BitVec.msb_eq_decide, toNat_pack s h]
  cases s
  · simpa using h
  · simp

@[simp] theorem mag_pack {m : Nat} (s : Bool) (h : m < 2 ^ 31) : mag (pack s m) = m := by
  rw [mag, toNat_pack s h]
  split <;> omega

theorem isNaN_of_mag_le {w : F32} (h : mag w ≤ infMag) : isNaN w = false :=
  decide_eq_false h.not_gt

theorem units_eq_gridUnits (w : F32) : units w = gridUnits 23 (mag w) := rfl

theorem val_eq_signed (w : F32) : val w = signed (sign w) (units w) / 2 ^ 149 := rfl

theorem val_pack {m : Nat} (s : Bool) (h : m < 2 ^ 31) :
    val (pack s m) = signed s (gridUnits 23 m) / 2 ^ 149 := by
  rw [val_eq_signed, units_eq_gridUnits, mag_pack s h, sign_pack s h]

/-- The midpoint above the largest finite value is `2^128 - 2^103`. -/
theorem gridUnits_overflow :
    (gridUnits 23 maxFiniteMag + gridUnits 23 (maxFiniteMag + 1) : ℚ)
      = 2 * ((2 ^ 128 - 2 ^ 103) * 2 ^ 149) := by
  have hmax : gridUnits 23 maxFiniteMag = (2 ^ 24 - 1) * 2 ^ 253 := by decide
  have hinf : gridUnits 23 (maxFiniteMag + 1) = 2 ^ 24 * 2 ^ 253 := by decide
  rw [hmax, hinf]
  norm_num

section
variable {d m r : Nat} {x : ℚ} (s : Bool)

theorem le_maxFiniteMag_iff (hnear : NearestPattern 23 d m r) (hx : SameComparisons d m x) :
    r ≤ maxFiniteMag ↔ |signed s x / 2 ^ 149| < 2 ^ 128 - 2 ^ 103 := by
  have hunit : (0 : ℚ) < 2 ^ 149 := by positivity
  rw [hnear.le_iff_of_odd hx (by decide), gridUnits_overflow, abs_div, abs_signed,
    abs_of_nonneg hx.nonneg, abs_of_pos hunit, div_lt_iff₀ hunit, mul_lt_mul_iff_right₀ two_pos]

/-- No binary32 value is nearer than the nearest pattern's, and one equally near leaves that pattern even. -/
theorem pack_closest (hnear : NearestPattern 23 d m r) (hx : SameComparisons d m x) (hr : r < infMag)
    (c : F32) :
    |val (pack s r) - signed s x / 2 ^ 149| < |val c - signed s x / 2 ^ 149| ∨
    (|val (pack s r) - signed s x / 2 ^ 149| = |val c - signed s x / 2 ^ 149| ∧
      (val c = val (pack s r) ∨ mag (pack s r) % 2 = 0)) := by
  have hunit : (0 : ℚ) < 2 ^ 149 := by positivity
  have hr31 := hr.trans infMag_lt
  rw [val_pack s hr31, mag_pack s hr31, val_eq_signed c, F64.abs_div_sub_div hunit,
    F64.abs_div_sub_div hunit, div_lt_div_iff_of_pos_right hunit, div_left_inj' hunit.ne',
    div_left_inj' hunit.ne']
  exact hnear.closest_signed hx s (sign c) (mag c)

end

end Sys2Proof.F32
end

section
/-! The sample codec. Decoding is exact because the exact sample is a binary64 value, so that rounding it gives
it back (R182, R183); encoding narrows to the nearest binary32 (R186). -/

namespace Sys2Proof

open Rounding

/-! ### Decoding -/

/-- Every integer of at most 53 bits, scaled by a power of two in range, is the value of a binary64 pattern. -/
theorem F64.exists_val_eq_scale {j q : Nat} (s : Bool) (hq : q ≤ 2 ^ 53) (hj : j < 2045) :
    ∃ c : F64, isFinite c = true ∧ val c = signed s ((q * 2 ^ j : Nat) : ℚ) / 2 ^ 1074 := by
  obtain ⟨k, hk⟩ := exists_gridUnits_eq 52 j q hq
  have hlt : k < infMag := by
    have hinf : infMag = 2045 * 2 ^ 52 + 2 ^ 53 := by decide
    rw [← (gridUnits_strictMono 52).lt_iff_lt, hk, hinf, gridUnits_scale le_rfl (.inr (by decide))]
    exact (Nat.mul_le_mul_right (2 ^ j) hq).trans_lt (by gcongr; decide)
  have hk63 := hlt.trans infMag_lt
  exact ⟨pack s k, by rwa [isFinite_iff, mag_pack s hk63], by rw [val_pack s hk63, hk]⟩

theorem F64.val_pcm16Scale_ne_zero : val pcm16Scale ≠ 0 := by
  rw [Ne, val_eq_zero]
  decide

theorem F64.val_pcm16Scale : val pcm16Scale = 32768 := by
  have h := (ofNat_exact (n := 32768) (by decide)).2
  rwa [show ofNat 32768 = pcm16Scale by decide +kernel, Nat.cast_ofNat] at h

/-- A binary32 magnitude is a whole number of at most 24 bits, scaled by a power of two. -/
theorem F32.exists_units_eq_scale {w : F32} (hw : mag w < infMag) :
    ∃ j q, units w = q * 2 ^ j ∧ q < 2 ^ 24 ∧ j < 255 := by
  obtain ⟨j, q, hmag, hq, hj⟩ := exists_scale 23 (mag w)
  refine ⟨j, q, by rw [units_eq_gridUnits, hmag, gridUnits_scale hq.le hj], hq, ?_⟩
  rw [infMag] at hw
  omega

/-- The value of a binary32 word, in the units of binary64. -/
theorem F32.val_eq_signed_scaled (w : F32) :
    val w = signed (sign w) ((units w * 2 ^ 925 : Nat) : ℚ) / 2 ^ 1074 := by
  have hpow : (2 : ℚ) ^ 1074 = 2 ^ 149 * 2 ^ 925 := by rw [← pow_add]
  rw [val_eq_signed, signed_div_right, signed_div_right, Nat.cast_mul, Nat.cast_pow, Nat.cast_ofNat, hpow,
    mul_div_mul_right _ _ (by positivity)]

theorem widen_of_finite (q : F64) {w : F32} (hw : F32.mag w < F32.infMag) :
    widen q w = F64.pack (F32.sign w) (F64.roundMag 0 (F32.units w * 2 ^ 925)) := by
  rw [widen, F32.isNaN_of_mag_le hw.le, if_neg Bool.false_ne_true, if_neg hw.ne]

theorem sign_widen (q : F64) {w : F32} (hw : F32.mag w < F32.infMag) :
    F64.sign (widen q w) = F32.sign w := by
  rw [widen_of_finite q hw, F64.sign_pack _ (F64.roundMag_lt _ _)]

theorem widen_exact (q : F64) {w : F32} (hw : F32.mag w < F32.infMag) :
    F64.isFinite (widen q w) = true ∧ F64.val (widen q w) = F32.val w := by
  obtain ⟨j, n, hunits, hn, hj⟩ := F32.exists_units_eq_scale hw
  obtain ⟨c, hc, hval⟩ := F64.exists_val_eq_scale (j := j + 925) (F32.sign w)
    (hn.le.trans (by decide)) (by omega)
  have hcw : F64.val c = F32.val w := by
    rw [hval, F32.val_eq_signed_scaled, hunits, pow_add, mul_assoc]
  have hround := F64.rounds64_pack (F32.sign w) (sameComparisons_div 0 (F32.units w * 2 ^ 925))
  rw [pow_zero, div_one, ← F32.val_eq_signed_scaled, ← widen_of_finite q hw, ← hcw] at hround
  rw [← hcw]
  exact F64.eq_val_of_rounds64 hc hround

theorem widen_of_isNaN (q : F64) {w : F32} (hw : F32.isNaN w = true) : widen q w = q := if_pos hw

theorem widen_of_inf (q : F64) {w : F32} (hw : F32.mag w = F32.infMag) :
    widen q w = F64.pack (F32.sign w) F64.infMag := by
  rw [widen, F32.isNaN_of_mag_le hw.le, if_neg Bool.false_ne_true, if_pos hw]

namespace Machine

theorem natAbs_toInt_le (v : BitVec 16) : v.toInt.natAbs ≤ 2 ^ 15 := by
  have := v.le_toInt
  have := v.toInt_lt
  omega

theorem ofInt_sample (v : BitVec 16) :
    F64.isFinite (F64.ofInt v.toInt) = true ∧ F64.val (F64.ofInt v.toInt) = v.toInt :=
  F64.ofInt_exact ((natAbs_toInt_le v).trans (by decide))

theorem sign_pcm16ToFp (v : BitVec 16) : F64.sign (pcm16ToFp v) = decide (v.toInt < 0) := by
  have hscale : F64.sign F64.pcm16Scale = false := by decide
  rw [pcm16ToFp, F64.sign_div_of_isFinite _ (ofInt_sample v).1 (by decide) F64.val_pcm16Scale_ne_zero, hscale,
    Bool.bne_false, F64.ofInt, F64.sign_pack _ (F64.roundMag_lt _ _)]

theorem exists_val_eq_sample (v : BitVec 16) :
    ∃ c : F64, F64.isFinite c = true ∧ F64.val c = (v.toInt : ℚ) / 32768 := by
  obtain ⟨c, hc, hval⟩ := F64.exists_val_eq_scale (j := 1059) (decide (v.toInt < 0))
    ((natAbs_toInt_le v).trans (by decide)) (by decide)
  have hpow : (2 : ℚ) ^ 1074 = 32768 * 2 ^ 1059 := by
    rw [show (32768 : ℚ) = 2 ^ 15 by norm_num, ← pow_add]
  refine ⟨c, hc, ?_⟩
  rw [hval, signed_div_right, Nat.cast_mul, Nat.cast_pow, Nat.cast_ofNat, hpow,
    mul_div_mul_right _ _ (by positivity), ← signed_div_right, signed_decide_natAbs]

theorem pcm16ToFp_exact (v : BitVec 16) :
    F64.isFinite (pcm16ToFp v) = true ∧ F64.val (pcm16ToFp v) = (v.toInt : ℚ) / 32768 := by
  obtain ⟨hfinite, hint⟩ := ofInt_sample v
  obtain ⟨c, hc, hval⟩ := exists_val_eq_sample v
  have hround := F64.rounds64_div F64.quietNaN hfinite (by decide) F64.val_pcm16Scale_ne_zero
  rw [hint, F64.val_pcm16Scale, ← hval] at hround
  rw [← hval]
  exact F64.eq_val_of_rounds64 hc hround

/-- A sample of value zero has the sign of the integer 0. -/
theorem pcm16ToFp_ne_negZero (v : BitVec 16) : pcm16ToFp v ≠ F64.negZero := by
  intro h
  obtain ⟨hsign, hmag⟩ := F64.eq_negZero_iff.1 h
  have hval := (pcm16ToFp_exact v).2
  rw [F64.val_eq_zero.2 hmag, eq_comm, div_eq_zero_iff, Int.cast_eq_zero, or_iff_left (by decide)] at hval
  rw [sign_pcm16ToFp, hval] at hsign
  exact absurd hsign (by decide)

end Machine

/-! ### Encoding -/

/-- The value of a finite binary64 pattern, in the units of binary32. -/
theorem F64.val_eq_signed_scaled (v : F64) :
    val v = signed (sign v) ((units v : ℚ) / 2 ^ 925) / 2 ^ 149 := by
  rw [val_eq_signed, signed_div_right, signed_div_right, div_div, ← pow_add]

theorem narrow_of_isNaN (q : F32) {v : F64} (hv : F64.isNaN v = true) : narrow q v = q := if_pos hv

theorem narrow_of_isInf (q : F32) {v : F64} (hv : F64.isInf v = true) :
    narrow q v = F32.pack (F64.sign v) F32.infMag := by
  rw [narrow, F64.isNaN_of_isInf hv, if_neg Bool.false_ne_true, if_pos hv]

theorem narrow_of_isFinite (q : F32) {v : F64} (hv : F64.isFinite v = true) :
    narrow q v = F32.pack (F64.sign v) (roundUnits 24 925 F32.infMag (F64.units v)) := by
  rw [narrow, F64.isNaN_of_isFinite hv, F64.isInf_of_isFinite hv, if_neg Bool.false_ne_true,
    if_neg Bool.false_ne_true]

/-- A finite value narrows to its nearest pattern, cut at that of infinity; the threshold tells the two apart
(R186). -/
theorem narrow_cases (q : F32) {v : F64} (hv : F64.isFinite v = true) :
    ∃ r, NearestPattern 23 925 (F64.units v) r ∧
      (r < F32.infMag ↔ |F64.val v| < 2 ^ 128 - 2 ^ 103) ∧
      narrow q v = F32.pack (F64.sign v) (min F32.infMag r) := by
  obtain ⟨r, hround, hnear⟩ :=
    exists_nearestPattern_roundUnits (f := 23) (by decide) 925 F32.infMag (F64.units v)
  refine ⟨r, hnear, ?_, by rw [narrow_of_isFinite q hv, hround]⟩
  rw [F64.val_eq_signed_scaled, ← F32.le_maxFiniteMag_iff _ hnear (sameComparisons_div _ _)]
  exact Nat.lt_succ_iff

theorem narrow_overflow (q : F32) {v : F64} (hv : F64.isFinite v = true)
    (h : 2 ^ 128 - 2 ^ 103 ≤ |F64.val v|) : narrow q v = F32.pack (F64.sign v) F32.infMag := by
  obtain ⟨r, -, hfinite, hr⟩ := narrow_cases q hv
  rw [hr, min_eq_left (not_lt.1 (mt hfinite.1 h.not_gt))]

theorem narrow_nearest (q : F32) {v : F64} (hv : F64.isFinite v = true)
    (h : |F64.val v| < 2 ^ 128 - 2 ^ 103) :
    F32.mag (narrow q v) < F32.infMag ∧ F32.sign (narrow q v) = F64.sign v ∧
    ∀ c : F32, |F32.val (narrow q v) - F64.val v| < |F32.val c - F64.val v| ∨
      (|F32.val (narrow q v) - F64.val v| = |F32.val c - F64.val v| ∧
        (F32.val c = F32.val (narrow q v) ∨ F32.mag (narrow q v) % 2 = 0)) := by
  obtain ⟨r, hnear, hfinite, hr⟩ := narrow_cases q hv
  have hlt := hfinite.2 h
  have hr31 := hlt.trans F32.infMag_lt
  rw [hr, min_eq_right hlt.le, F64.val_eq_signed_scaled v]
  exact ⟨by rwa [F32.mag_pack _ hr31], F32.sign_pack _ hr31,
    F32.pack_closest _ hnear (sameComparisons_div _ _) hlt⟩

open Machine

/-- Settles O51: the exact sample is a binary64 value, so the division and the widening give it. -/
theorem decodingIsExact : Obligations.DecodingIsExact := by
  refine ⟨fun v => ?_, fun q w => ⟨fun hw => ?_, widen_of_inf q, widen_of_isNaN q⟩⟩
  · obtain ⟨hfinite, hval⟩ := pcm16ToFp_exact v
    exact ⟨hfinite, hval, pcm16ToFp_ne_negZero v⟩
  · obtain ⟨hfinite, hval⟩ := widen_exact q hw
    exact ⟨hfinite, hval, sign_widen q hw⟩

/-- Settles O53: narrowing by the class of the value and, for a finite one, by the overflow threshold. -/
theorem narrowingIsNearestEven : Obligations.NarrowingIsNearestEven := by
  refine fun q v => ⟨narrow_of_isNaN q, narrow_of_isInf q, narrow_overflow q, fun hv h => ?_⟩
  obtain ⟨hmag, hsign, hclosest⟩ := narrow_nearest q hv h
  exact ⟨hmag, hsign, fun c _ => hclosest c⟩

end Sys2Proof
end

section
/-! Exact facts of binary64 that the stereo unit needs: rounding keeps the order with every binary64 value, halving
takes back a doubling, and adding a zero leaves a value as it is (R12). -/

namespace Sys2Proof.F64

open Rounding

theorem class_cases (x : F64) : isNaN x = true ∨ isInf x = true ∨ isFinite x = true := by
  rw [isNaN_iff, isInf_iff, isFinite_iff]
  omega

theorem not_isFinite_of_isNaN {x : F64} (h : isNaN x = true) : isFinite x = false :=
  Bool.eq_false_iff.2 fun hx => by simp [isNaN_of_isFinite hx] at h

theorem not_isFinite_of_isInf {x : F64} (h : isInf x = true) : isFinite x = false :=
  Bool.eq_false_iff.2 fun hx => by simp [isInf_of_isFinite hx] at h

theorem isInf_pack_infMag (s : Bool) : isInf (pack s infMag) = true := by
  rw [isInf_iff, mag_pack s infMag_lt]

theorem val_zero : val zero = 0 := val_eq_zero.2 (by decide)

theorem val_two : val two = 2 := by
  have h := (ofNat_exact (n := 2) (by decide)).2
  rwa [show ofNat 2 = two by decide +kernel, Nat.cast_ofNat] at h

theorem abs_val (x : F64) : |val x| = units x / 2 ^ 1074 := by
  have hunit : (0 : ℚ) < 2 ^ 1074 := by positivity
  rw [val_eq_signed, abs_div, abs_signed, Nat.abs_cast, abs_of_pos hunit]

theorem val_of_sign_false {x : F64} (h : sign x = false) : val x = units x / 2 ^ 1074 := by
  rw [val_eq_signed, h]
  rfl

/-! ### Rounding keeps the order with every binary64 value -/

section
variable {e : ℚ} {r c : F64}

theorem le_val_of_nearestEven64 (h : Claims.NearestEven64 e r) (hc : isFinite c = true) (hle : val c ≤ e) :
    val c ≤ val r := by
  have hnear : |val r - e| ≤ |val c - e| := (h.2 c hc).elim le_of_lt fun heq => heq.1.le
  rw [abs_of_nonpos (sub_nonpos.2 hle)] at hnear
  linarith [(abs_le.1 hnear).1]

theorem val_le_of_nearestEven64 (h : Claims.NearestEven64 e r) (hc : isFinite c = true) (hle : e ≤ val c) :
    val r ≤ val c := by
  have hnear : |val r - e| ≤ |val c - e| := (h.2 c hc).elim le_of_lt fun heq => heq.1.le
  rw [abs_of_nonneg (sub_nonneg.2 hle)] at hnear
  linarith [(abs_le.1 hnear).2]

/-- Rounding never falls below a binary64 magnitude. -/
theorem le_abs_val_of_nearestEven64 (h : Claims.NearestEven64 e r) (hc : isFinite c = true)
    (hle : val c ≤ |e|) : val c ≤ |val r| := by
  rcases le_abs.1 hle with hpos | hneg
  · exact (le_val_of_nearestEven64 h hc hpos).trans (le_abs_self _)
  · have hr := val_le_of_nearestEven64 h ((isFinite_neg c).trans hc) (by rw [val_neg]; linarith)
    rw [val_neg] at hr
    exact le_abs.2 (.inr (by linarith))

/-- An exact result between two binary64 values rounds to one between them. -/
theorem rounds64_between {a b : F64} (h : Claims.Rounds64 e r) (ha : isFinite a = true)
    (hb : isFinite b = true) (hae : val a ≤ e) (heb : e ≤ val b) :
    isFinite r = true ∧ val a ≤ val r ∧ val r ≤ val b := by
  have hbound : |e| < 2 ^ 1024 - 2 ^ 970 :=
    abs_lt.2 ⟨(abs_lt.1 (abs_val_lt_of_isFinite ha)).1.trans_le hae,
      heb.trans_lt (abs_lt.1 (abs_val_lt_of_isFinite hb)).2⟩
  rw [Claims.Rounds64, if_pos hbound] at h
  exact ⟨h.1, le_val_of_nearestEven64 h ha hae, val_le_of_nearestEven64 h hb heb⟩

/-- A rounded result is finite, and then nearest, or an infinity. -/
theorem rounds64_cases (h : Claims.Rounds64 e r) :
    (|e| < 2 ^ 1024 - 2 ^ 970 ∧ Claims.NearestEven64 e r) ∨ isInf r = true := by
  unfold Claims.Rounds64 at h
  split at h
  · next hbound => exact .inl ⟨hbound, h⟩
  · rw [h]
    exact .inr (isInf_pack_infMag _)

end

/-! ### Halving -/

section
variable {x : F64} (q : F64)

theorem isInf_half (hx : isInf x = true) : isInf (div q x two) = true := by
  obtain ⟨-, -, -, -, -, -, hdiv, -⟩ := operations_of_isInf_isFinite q hx (b := two) (by decide)
  rw [hdiv]
  exact isInf_pack_infMag _

theorem rounds64_half (hx : isFinite x = true) : Claims.Rounds64 (val x / 2) (div q x two) := by
  have h := rounds64_div q hx (b := two) (by decide) (by rw [val_two]; norm_num)
  rwa [val_two] at h

theorem sign_half (hx : isFinite x = true) : sign (div q x two) = sign x := by
  rw [sign_div_of_isFinite q hx (by decide) (by rw [val_two]; norm_num), show sign two = false by decide,
    Bool.bne_false]

/-- Halving the double of a value gives the value back, a zero with its sign. -/
theorem half_of_val_eq_double {l : F64} (hx : isFinite x = true) (hl : isFinite l = true)
    (hsign : sign x = sign l) (hval : val x = 2 * val l) : div q x two = l := by
  have hround := rounds64_half q hx
  rw [hval, mul_div_cancel_left₀ _ two_ne_zero] at hround
  have hhalf := (eq_val_of_rounds64 hl hround).2
  refine ext_sign_mag ((sign_half q hx).trans hsign) ?_
  rw [← natAbs_key, ← natAbs_key, key_eq_of_val_eq hhalf]

end

/-! ### Doubling -/

/-- The double of a value is a value, unless it overflows. -/
theorem exists_val_eq_double {l : F64} (hbound : |val l + val l| < 2 ^ 1024 - 2 ^ 970) :
    ∃ c : F64, isFinite c = true ∧ val c = val l + val l := by
  obtain ⟨j, n, hmag, hn, hj⟩ := exists_scale 52 (mag l)
  obtain ⟨k, hk⟩ := exists_gridUnits_eq 52 (j + 1) n hn.le
  have hdouble : gridUnits 52 k = 2 * units l := by
    rw [hk, units_eq_gridUnits, hmag, gridUnits_scale hn.le hj, pow_succ]
    ring
  have hunit : (0 : ℚ) < 2 ^ 1074 := by positivity
  have hlt : k < infMag := by
    by_contra! hle
    have hinf : (gridUnits 52 (maxFiniteMag + 1) : ℚ) ≤ gridUnits 52 k := gridUnits_cast_le hle
    have hmax : (gridUnits 52 maxFiniteMag : ℚ) < gridUnits 52 (maxFiniteMag + 1) :=
      gridUnits_cast_lt (Nat.lt_succ_self _)
    rw [← two_mul, abs_mul, abs_val, abs_two, mul_div_assoc', div_lt_iff₀ hunit] at hbound
    rw [hdouble, Nat.cast_mul, Nat.cast_ofNat] at hinf
    have hover := gridUnits_overflow
    generalize (2 : ℚ) ^ 1024 - 2 ^ 970 = bound at hbound hover
    generalize (2 : ℚ) ^ 1074 = unit at hbound hover
    linarith
  have hk63 := hlt.trans infMag_lt
  refine ⟨pack (sign l) k, by rwa [isFinite_iff, mag_pack _ hk63], ?_⟩
  have hsigned : signed (sign l) (2 * units l) = signed (sign l) (units l) + signed (sign l) (units l) := by
    rw [two_mul]
    cases sign l with
    | false => rfl
    | true => exact neg_add _ _
  rw [val_pack _ hk63, hdouble, val_eq_signed, ← add_div, Nat.cast_mul, Nat.cast_ofNat, hsigned]

section
variable {l : F64} (q q' : F64)

theorem sign_add_self (hl : isFinite l = true) : sign (add q l l) = sign l := by
  rw [add_of_isFinite q hl hl, sign_pack _ (roundMag_lt _ _), Bool.and_self]
  split
  · rfl
  next hne =>
  cases hs : sign l with
  | false => simp [signedUnits, hs]
  | true =>
    simp only [signedUnits, hs, if_true] at hne ⊢
    exact decide_eq_true (by omega)

/-- The mean of a value with itself is the value, or an infinity where the sum overflows (R213). -/
theorem mean_self_cases (hl : isFinite l = true) :
    (isFinite (add q l l) = true ∧ div q' (add q l l) two = l) ∨
    (isFinite (add q l l) = false ∧ isInf (div q' (add q l l) two) = true) := by
  have hround := rounds64_add q hl hl
  rcases rounds64_cases hround with ⟨hbound, -⟩ | hinf
  · obtain ⟨c, hc, hval⟩ := exists_val_eq_double hbound
    obtain ⟨hsum, hvsum⟩ := eq_val_of_rounds64 hc (hval ▸ hround)
    refine .inl ⟨hsum, half_of_val_eq_double q' hsum hl (sign_add_self q hl) ?_⟩
    rw [hvsum, hval, two_mul]
  · exact .inr ⟨not_isFinite_of_isInf hinf, isInf_half q' hinf⟩

end

/-! ### Zeros -/

/-- The difference of equal finite values is `+0.0` (R213). -/
theorem sub_self_eq_zero (q : F64) {l : F64} (hl : isFinite l = true) : sub q l l = zero := by
  rw [sub_eq_zero_of_val q hl hl (sub_self _), if_neg]
  rintro ⟨rfl, h⟩
  exact absurd h (by decide)

theorem half_zero (q : F64) : div q zero two = zero :=
  half_of_val_eq_double q (by decide) (by decide) rfl (by rw [val_zero, mul_zero])

/-- A zero added to or taken from a value other than a NaN or `-0.0` leaves the value. -/
theorem add_sub_zero_eq {x z : F64} (q q' : F64) (hnan : isNaN x = false) (hneg : x ≠ negZero)
    (hz : isFinite z = true) (hz0 : val z = 0) : add q x z = x ∧ sub q' x z = x := by
  rcases class_cases x with hx | hx | hx
  · simp [hnan] at hx
  · obtain ⟨hadd, -⟩ := operations_of_isInf_isFinite q hx hz
    obtain ⟨-, -, hsub, -⟩ := operations_of_isInf_isFinite q' hx hz
    exact ⟨hadd, hsub⟩
  by_cases h0 : val x = 0
  · have hxz : x = zero := by
      have hmag := val_eq_zero.1 h0
      refine eq_zero_iff.2 ⟨Bool.eq_false_iff.2 fun hs => hneg (eq_negZero_iff.2 ⟨hs, hmag⟩), hmag⟩
    rw [add_eq_zero_of_val q hx hz (by rw [h0, hz0, add_zero]), if_neg fun h => hneg h.1,
      sub_eq_zero_of_val q' hx hz (by rw [h0, hz0, sub_zero]), if_neg fun h => hneg h.1]
    exact ⟨hxz.symm, hxz.symm⟩
  · exact ⟨eq_of_val_eq (add_zero_exact q hx hz hz0).2 h0, eq_of_val_eq (sub_zero_exact q' hx hz hz0).2 h0⟩

end Sys2Proof.F64
end

section
/-! The geometry of the delay line. A rate times a number of seconds lies between two short multiples of the rate,
which are binary64 values, and rounding keeps it there (R200, R201, R215). -/

namespace Sys2Proof.F64

open Rounding

/-- Every whole number of at most 53 bits, divided by `2^13`, is a binary64 value. -/
theorem exists_val_eq_div_two_pow {n : Nat} (hn : n ≤ 2 ^ 53) :
    ∃ c : F64, isFinite c = true ∧ val c = (n : ℚ) / 2 ^ 13 := by
  obtain ⟨c, hc, hval⟩ := exists_val_eq_scale (j := 1061) false hn (by decide)
  have hpow : (2 : ℚ) ^ 1074 = 2 ^ 13 * 2 ^ 1061 := by rw [← pow_add]
  refine ⟨c, hc, ?_⟩
  rw [hval, signed, if_neg Bool.false_ne_true, Nat.cast_mul, Nat.cast_pow, Nat.cast_ofNat, hpow,
    mul_div_mul_right _ _ (by positivity)]

/-- A whole number times a value between `lo / 2^13` and `hi / 2^13` rounds between the multiples of the two. -/
theorem ofNat_mul_between (q : F64) {n lo hi : Nat} {sec : F64} (hn : n ≤ 2 ^ 32) (hlo : lo ≤ 2 ^ 21)
    (hhi : hi ≤ 2 ^ 21) (hsec : isFinite sec = true) (hlosec : (lo : ℚ) / 2 ^ 13 ≤ val sec)
    (hsechi : val sec ≤ (hi : ℚ) / 2 ^ 13) :
    ((n * lo : Nat) : ℚ) / 2 ^ 13 ≤ val (mul q (ofNat n) sec) ∧
    val (mul q (ofNat n) sec) ≤ ((n * hi : Nat) : ℚ) / 2 ^ 13 := by
  obtain ⟨a, ha, hvala⟩ := exists_val_eq_div_two_pow (n := n * lo)
    ((Nat.mul_le_mul hn hlo).trans_eq (pow_add 2 32 21).symm)
  obtain ⟨b, hb, hvalb⟩ := exists_val_eq_div_two_pow (n := n * hi)
    ((Nat.mul_le_mul hn hhi).trans_eq (pow_add 2 32 21).symm)
  obtain ⟨hrate, hvaln⟩ := ofNat_exact (hn.trans (by decide))
  have hround := rounds64_mul q hrate hsec
  have hn0 : (0 : ℚ) ≤ n := Nat.cast_nonneg n
  rw [hvaln] at hround
  rw [← hvala, ← hvalb]
  refine (rounds64_between hround ha hb ?_ ?_).2
  · rw [hvala, Nat.cast_mul, mul_div_assoc]
    exact mul_le_mul_of_nonneg_left hlosec hn0
  · rw [hvalb, Nat.cast_mul, mul_div_assoc]
    exact mul_le_mul_of_nonneg_left hsechi hn0

theorem sign_ofNat_mul (q : F64) {n : Nat} {sec : F64} (hn : n ≤ 2 ^ 53) (hsec : isFinite sec = true)
    (hsign : sign sec = false) : sign (mul q (ofNat n) sec) = false := by
  rw [sign_mul_of_isFinite q (ofNat_exact hn).1 hsec, hsign, ofNat, sign_pack _ (roundMag_lt _ _)]
  rfl

theorem div_two_pow_le_val {x : F64} {w : Nat} (hs : sign x = false) (h : w * 2 ^ 1074 ≤ units x * 2 ^ 13) :
    (w : ℚ) / 2 ^ 13 ≤ val x := by
  rw [val_of_sign_false hs, div_le_div_iff₀ (by positivity) (by positivity)]
  exact_mod_cast h

theorem val_le_div_two_pow {x : F64} {w : Nat} (hs : sign x = false) (h : units x * 2 ^ 13 ≤ w * 2 ^ 1074) :
    val x ≤ (w : ℚ) / 2 ^ 13 := by
  rw [val_of_sign_false hs, div_le_div_iff₀ (by positivity) (by positivity)]
  exact_mod_cast h

/-- Four times a value rounds half up to more, unless to 0. -/
theorem roundHalfUp_lt_of_four_mul_le {a b : F64} (h : 4 * units a ≤ units b) :
    roundHalfUp a ≤ roundHalfUp b ∧ (0 < roundHalfUp b → roundHalfUp a < roundHalfUp b) := by
  unfold roundHalfUp
  have htwice : 2 ^ 1075 = 2 * 2 ^ 1074 := by rw [← pow_succ']
  rw [htwice]
  have hpos : 0 < 2 ^ 1074 := by positivity
  generalize 2 ^ 1074 = one at *
  rcases Nat.eq_zero_or_pos ((2 * units a + one) / (2 * one)) with h0 | h1
  · rw [h0]
    exact ⟨Nat.zero_le _, id⟩
  · have hlt : (2 * units a + one) / (2 * one) < (2 * units b + one) / (2 * one) := by
      have hhalf : one ≤ 2 * units a := by
        have := (Nat.le_div_iff_mul_le (by omega)).1 h1
        omega
      calc (2 * units a + one) / (2 * one)
          < (2 * units a + one) / (2 * one) + 1 := Nat.lt_succ_self _
        _ = (2 * units a + one + 2 * one) / (2 * one) := (Nat.add_div_right _ (by omega)).symm
        _ ≤ (2 * units b + one) / (2 * one) := Nat.div_le_div_right (by omega)
    exact ⟨hlt.le, fun _ => hlt⟩

theorem roundHalfUp_eq_zero {x : F64} (hs : sign x = false) (h : val x < 1 / 2) : roundHalfUp x = 0 := by
  have hunits : 2 * units x < 2 ^ 1074 := by
    rw [val_of_sign_false hs, div_lt_div_iff₀ (by positivity) two_pos, one_mul, mul_comm] at h
    exact_mod_cast h
  exact Nat.div_eq_of_lt (by rw [Nat.pow_succ']; omega)

end Sys2Proof.F64

namespace Sys2Proof

open F64

/-- The product that is rounded to the length is at least 132/8192 of the rate (R200). -/
theorem le_lengthProduct {n : Nat} (hn : n ≤ 2 ^ 32) :
    ((n * 132 : Nat) : ℚ) / 2 ^ 13 ≤ val (mul quietNaN (ofNat n) dlSeconds) :=
  (ofNat_mul_between quietNaN hn (by decide) (by decide) (by decide)
    (div_two_pow_le_val (w := 132) (by decide) (by decide +kernel))
    (val_le_div_two_pow (w := 164) (by decide) (by decide +kernel))).1

/-- The product that is rounded to the lag is at most 33/8192 of the rate (R201). -/
theorem lagProduct_le {n : Nat} (hn : n ≤ 2 ^ 32) :
    val (mul quietNaN (ofNat n) delaySeconds) ≤ ((n * 33 : Nat) : ℚ) / 2 ^ 13 :=
  (ofNat_mul_between quietNaN hn (by decide) (by decide) (by decide)
    (div_two_pow_le_val (w := 32) (by decide) (by decide +kernel))
    (val_le_div_two_pow (w := 33) (by decide) (by decide +kernel))).2

/-- Settles O56: the product of the length is at least four times that of the lag. -/
theorem lagIsBelowTheLength : Obligations.LagIsBelowTheLength := by
  intro fs
  have hn : fs.toNat ≤ 2 ^ 32 := fs.isLt.le
  have hlength := le_lengthProduct hn
  have hlag := lagProduct_le hn
  have hsignLength := sign_ofNat_mul quietNaN (n := fs.toNat) (hn.trans (by decide)) (sec := dlSeconds)
    (by decide) (by decide)
  have hsignLag := sign_ofNat_mul quietNaN (n := fs.toNat) (hn.trans (by decide)) (sec := delaySeconds)
    (by decide) (by decide)
  have hfour : 4 * units (mul quietNaN (ofNat fs.toNat) delaySeconds)
      ≤ units (mul quietNaN (ofNat fs.toNat) dlSeconds) := by
    have hval : 4 * val (mul quietNaN (ofNat fs.toNat) delaySeconds)
        ≤ val (mul quietNaN (ofNat fs.toNat) dlSeconds) := by
      push_cast at hlength hlag
      linarith
    rw [val_of_sign_false hsignLength, val_of_sign_false hsignLag, mul_div_assoc',
      div_le_div_iff_of_pos_right (by positivity)] at hval
    exact_mod_cast hval
  obtain ⟨hle, hlt⟩ := roundHalfUp_lt_of_four_mul_le hfour
  refine ⟨hle, hlt, fun h124 => roundHalfUp_eq_zero hsignLag (hlag.trans_lt ?_)⟩
  rw [div_lt_div_iff₀ (by positivity) two_pos]
  exact_mod_cast (by omega : fs.toNat * 33 * 2 < 1 * 2 ^ 13)

/-- Settles O55: 22 closed rates, evaluated. -/
theorem geometryTable : Obligations.GeometryTable := by
  unfold Obligations.GeometryTable
  decide +kernel

end Sys2Proof
end

section
/-! The delay line over many frames. Number its contents on one time axis, the cleared line at `0 .. L-1` and the
side value of frame `i` at `L + i`: after `k` frames the line holds the window `k .. k + L - 1`, each entry at its
number modulo `L` (R202 to R205, R210). -/

namespace Sys2Proof.Machine

/-- A cursor goes one on modulo the length (R204, R205). -/
theorem toNat_advance_eq_mod (idx : Word) {len : Word} (h : len ≠ 0) :
    (advance idx len).toNat = (idx.toNat + 1) % len.toNat := by
  have hlt : (idx.toNat + 1) % len.toNat < 2 ^ 32 :=
    (Nat.mod_lt _ (Nat.pos_of_ne_zero (BitVec.toNat_ne_iff_ne.2 h))).trans len.isLt
  rw [advance, BitVec.toNat_ofNat, Nat.mod_eq_of_lt hlt]

/-- An entry after a write of the line: the value at the write cursor, as before elsewhere (R204). -/
theorem dlAt_dlWrite (v : F64) {s : State} (h : s.dlWidx.toNat < s.dl.length) (i : Nat) :
    (dlWrite v s).dlAt i = if s.dlWidx.toNat = i then v else s.dlAt i := by
  simp only [State.dlAt, dlWrite_dl, List.getD_eq_getElem?_getD, List.getElem?_set, h, if_true]
  split <;> rfl

@[simp] theorem dlRead_value (s : State) : (dlRead s).1 = s.dlAt s.dlRidx.toNat := rfl

@[simp] theorem dlAt_dlRead (s : State) (i : Nat) : (dlRead s).2.dlAt i = s.dlAt i := rfl

@[simp] theorem dlAt_dlInit (s : State) (i : Nat) : (dlInit s).dlAt i = F64.zero := by
  simp only [State.dlAt, dlInit_dl, List.getD_eq_getElem?_getD, List.getElem?_replicate]
  split <;> rfl

/-- The line after `k` frames of the stream `v`, whose first `DL_LEN` values are the line's own. -/
structure LineHolds (v : Nat → F64) (k : Nat) (s : State) : Prop where
  widx : s.dlWidx.toNat = k % s.dlLen.toNat
  ridx : s.dlRidx.toNat = (k + (s.dlLen.toNat - s.dlDelay.toNat)) % s.dlLen.toNat
  length : s.dl.length = s.dlLen.toNat
  window : ∀ n, k ≤ n → n < k + s.dlLen.toNat → s.dlAt (n % s.dlLen.toNat) = v n

section

variable {v : Nat → F64} {k : Nat} {s : State}

/-- A frame moves the window one on: its side value replaces the oldest entry (R204, R205). -/
theorem LineHolds.frame (h : LineHolds v k s) (hL : s.dlLen ≠ 0) :
    LineHolds v (k + 1) (dlRead (dlWrite (v (k + s.dlLen.toNat)) s)).2 := by
  have hpos : 0 < s.dlLen.toNat := Nat.pos_of_ne_zero (BitVec.toNat_ne_iff_ne.2 hL)
  obtain ⟨hw, hr, hlen, hwin⟩ := h
  have hin : s.dlWidx.toNat < s.dl.length := by rw [hw, hlen]; exact Nat.mod_lt _ hpos
  refine ⟨?_, ?_, List.length_set.trans hlen, fun n hkn hn => ?_⟩
  · rw [dlRead_dlWidx, dlRead_dlLen, dlWrite_dlWidx, dlWrite_dlLen, toNat_advance_eq_mod _ hL, hw,
      Nat.mod_add_mod]
  · rw [dlRead_dlRidx, dlRead_dlLen, dlRead_dlDelay, dlWrite_dlRidx, dlWrite_dlLen, dlWrite_dlDelay,
      toNat_advance_eq_mod _ hL, hr, Nat.mod_add_mod, Nat.add_right_comm]
  · rw [dlRead_dlLen, dlWrite_dlLen] at hn ⊢
    rw [dlAt_dlRead, dlAt_dlWrite _ hin, hw, ← Nat.add_mod_right k]
    split
    · next hsame =>
      rw [Nat.ModEq.eq_of_abs_lt hsame (abs_lt.2 ⟨by omega, by omega⟩)]
    · next hother =>
      have hne : n ≠ k + s.dlLen.toNat := fun hn => hother (by rw [hn])
      exact hwin n (by omega) (by omega)

/-- What a frame reads is the value `DL_DELAY` before the one it has written (R210). -/
theorem LineHolds.read (h : LineHolds v k s) (hD : s.dlDelay.toNat < s.dlLen.toNat) :
    (dlRead (dlWrite (v (k + s.dlLen.toNat)) s)).1 = v (k + (s.dlLen.toNat - s.dlDelay.toNat)) := by
  have hL : s.dlLen ≠ 0 := BitVec.toNat_ne_iff_ne.1 (Nat.ne_zero_of_lt hD)
  have hwindow := (h.frame hL).window (k + (s.dlLen.toNat - s.dlDelay.toNat)) (by omega)
  rw [dlRead_dlLen, dlWrite_dlLen, dlAt_dlRead] at hwindow
  rw [dlRead_value, dlWrite_dlRidx, h.ridx]
  exact hwindow (by omega)

end

/-- A run of frames reads the stream, `DL_DELAY` behind what it writes (R210). -/
theorem LineHolds.delayRun {v : Nat → F64} (sides : List F64) {k : Nat} {s : State} (h : LineHolds v k s)
    (hD : s.dlDelay.toNat < s.dlLen.toNat)
    (hsides : ∀ (i : Nat) (hi : i < sides.length), sides[i] = v (k + i + s.dlLen.toNat))
    {i : Nat} (hi : i < sides.length) :
    (Claims.delayRun sides s)[i]? = some (v (k + i + (s.dlLen.toNat - s.dlDelay.toNat))) := by
  induction sides generalizing k s i with
  | nil => exact absurd hi (Nat.not_lt_zero i)
  | cons x xs ih =>
    obtain rfl : x = v (k + s.dlLen.toNat) := hsides 0 (Nat.succ_pos _)
    cases i with
    | zero => exact congrArg some (h.read hD)
    | succ i =>
      have hframe := h.frame (BitVec.toNat_ne_iff_ne.1 (Nat.ne_zero_of_lt hD))
      have hnext := ih hframe hD (fun j hj => by
        rw [Nat.add_assoc k 1 j, Nat.add_comm 1 j]
        exact hsides (j + 1) (Nat.succ_lt_succ hj)) (Nat.lt_of_succ_lt_succ hi)
      rw [Nat.add_assoc k 1 i, Nat.add_comm 1 i] at hnext
      exact hnext

/-- The stream from a cleared line of length `L`: `L` times `+0.0`, then the side values. -/
def streamOf (L : Nat) (sides : List F64) (n : Nat) : F64 :=
  if n < L then F64.zero else sides.getD (n - L) F64.zero

/-- After `dl_init` the line holds the start of the stream (R202, R203). -/
theorem lineHolds_dlInit (sides : List F64) {s : State} (hD : s.dlDelay.toNat < s.dlLen.toNat) :
    LineHolds (streamOf s.dlLen.toNat sides) 0 (dlInit s) where
  widx := (Nat.zero_mod _).symm
  ridx := by
    have hL : s.dlLen.toNat ≠ 0 := Nat.ne_zero_of_lt hD
    rw [dlInit_dlRidx, dlInit_dlLen, dlInit_dlDelay, BitVec.toNat_ofNat,
      Nat.mod_eq_of_lt ((initialReadCursor_lt _ hL).trans s.dlLen.isLt), initialReadCursor, if_neg hL,
      Nat.mod_eq_of_lt hD, Nat.zero_add]
  length := List.length_replicate
  window n _ hn := by
    rw [dlInit_dlLen, Nat.zero_add] at hn
    rw [dlAt_dlInit, streamOf, if_pos hn]

end Sys2Proof.Machine

namespace Sys2Proof

open Machine in
/-- Settles O57: the run reads the stream of the cleared line and the side values. -/
theorem delayLineDelaysByTheLag : Obligations.DelayLineDelaysByTheLag := by
  intro s sides k hD hk
  have hsides : ∀ (i : Nat) (hi : i < sides.length),
      sides[i] = streamOf s.dlLen.toNat sides (0 + i + s.dlLen.toNat) := fun i hi => by
    rw [streamOf, if_neg (by omega), Nat.zero_add, Nat.add_sub_cancel, List.getD_eq_getElem _ _ hi]
  rw [(lineHolds_dlInit sides hD).delayRun sides hD hsides hk, Nat.zero_add, streamOf, dlInit_dlLen, dlInit_dlDelay]
  by_cases hlag : k < s.dlDelay.toNat
  · rw [if_pos hlag, if_pos (by omega)]
  · rw [if_neg hlag, if_neg (by omega),
      show k + (s.dlLen.toNat - s.dlDelay.toNat) - s.dlLen.toNat = k - s.dlDelay.toNat by omega]

end Sys2Proof
end

section
/-! The widener in the frames of a PROCESS: mono passes the delay line by, stereo moves both cursors by one in every
frame (R206 to R208, R211). -/

namespace Sys2Proof.Machine

/-- `t` has the delay line of `s` and its cursors. -/
def SameLine (s t : State) : Prop := t.dl = s.dl ∧ t.dlWidx = s.dlWidx ∧ t.dlRidx = s.dlRidx

theorem SameLine.refl (s : State) : SameLine s s := ⟨rfl, rfl, rfl⟩

theorem SameLine.trans {s t u : State} (h : SameLine s t) (g : SameLine t u) : SameLine s u := by
  obtain ⟨hdl, hw, hr⟩ := h
  obtain ⟨gdl, gw, gr⟩ := g
  exact ⟨gdl.trans hdl, gw.trans hw, gr.trans hr⟩

theorem FstOnly.sameLine {n : Nat} {s t : State} (h : FstOnly n s t) : SameLine s t := by
  rw [FstOnly] at h
  rw [h]
  exact .refl s

theorem sameLine_tick (n : Nat) (s : State) : SameLine s (s.tick n) :=
  ⟨State.tick_dl n s, State.tick_dlWidx n s, State.tick_dlRidx n s⟩

theorem sameLine_emit (E : Env) (o : Nat) (v : F64) (s : State) : SameLine s (emit E o v s) := by
  have hstore : SameLine s (obufWrite o (limit E v s) s) :=
    ⟨obufWrite_dl o _ s, obufWrite_dlWidx o _ s, obufWrite_dlRidx o _ s⟩
  exact hstore.trans (sameLine_tick 1 _)

theorem sameLine_emitFrame (E : Env) (n : Nat) (l r : F64) (s : State) : SameLine s (emitFrame E n l r s) := by
  unfold emitFrame
  split
  · exact sameLine_emit E _ l s
  · exact (sameLine_emit E _ l s).trans (sameLine_emit E _ r _)

/-- A frame's result has the line its widener leaves: the output stage does not reach the line (R250). -/
theorem sameLine_processFrame (E : Env) (n : Nat) (s : State) :
    SameLine (frameWide E n s).2 (processFrame E n s) := by
  rw [processFrame_eq]
  exact sameLine_emitFrame E n _ _ _

@[simp] theorem frameRight_actCh (E : Env) (n : Nat) (s : State) : (frameRight E n s).2.actCh = s.actCh := by
  rw [fstOnly_frameRight E n s]

@[simp] theorem frameRight_dlLen (E : Env) (n : Nat) (s : State) : (frameRight E n s).2.dlLen = s.dlLen := by
  rw [fstOnly_frameRight E n s]

@[simp] theorem processFrame_actCh (E : Env) (n : Nat) (s : State) : (processFrame E n s).actCh = s.actCh := by
  rw [frameOf_processFrame E n s]

@[simp] theorem processFrame_dlLen (E : Env) (n : Nat) (s : State) : (processFrame E n s).dlLen = s.dlLen := by
  rw [frameOf_processFrame E n s]

/-- In mono the widener's station is the left chain's output and the state after both chains (R208). -/
theorem frameWide_mono (E : Env) (n : Nat) {s : State} (h : s.actCh = .mono) :
    frameWide E n s = (((frameLeft E n s).1, (frameRight E n s).1), (frameRight E n s).2) :=
  widenFrame_mono E _ _ ((frameRight_actCh E n s).trans h)

theorem frameWide_stereo (E : Env) (n : Nat) {s : State} (h : s.actCh = .stereo) :
    frameWide E n s = midSide E (frameLeft E n s).1 (frameRight E n s).1 (frameRight E n s).2 :=
  widenFrame_stereo E _ _ ((frameRight_actCh E n s).trans h)

/-- A frame keeps the line where the widener does not run on one: in mono, and without a line (R207, R208). -/
theorem sameLine_processFrame_of_bypass (E : Env) (n : Nat) {s : State} (h : s.actCh = .mono ∨ s.dlLen = 0) :
    SameLine s (processFrame E n s) := by
  have hchains := (fstOnly_frameRight E n s).sameLine
  refine (hchains.trans ?_).trans (sameLine_processFrame E n s)
  cases hc : s.actCh with
  | mono =>
    rw [frameWide_mono E n hc]
    exact .refl _
  | stereo =>
    have h0 : s.dlLen = 0 := h.resolve_left (by simp [hc])
    rw [frameWide_stereo E n hc, midSide_zeroLength E _ _ _ ((frameRight_dlLen E n s).trans h0)]
    exact sameLine_tick 9 _

/-- With a line, a stereo frame moves both cursors one on (R211). -/
theorem processFrame_cursors (E : Env) (n : Nat) {s : State} (hc : s.actCh = .stereo) (h0 : s.dlLen ≠ 0) :
    (processFrame E n s).dlWidx = advance s.dlWidx s.dlLen ∧
    (processFrame E n s).dlRidx = advance s.dlRidx s.dlLen := by
  obtain ⟨-, hw, hr⟩ := sameLine_processFrame E n s
  obtain ⟨-, hw', hr'⟩ := (fstOnly_frameRight E n s).sameLine
  rw [frameWide_stereo E n hc, midSide_delay E _ _ _ (by rwa [frameRight_dlLen])] at hw hr
  rw [hw, hr, hw', hr', frameRight_dlLen]
  exact ⟨rfl, rfl⟩

theorem sameLine_processFrames_of_bypass (E : Env) (k n : Nat) {s : State}
    (h : s.actCh = .mono ∨ s.dlLen = 0) : SameLine s (processFrames E k n s) := by
  induction k generalizing n s with
  | zero => exact .refl s
  | succ k ih =>
    refine (sameLine_processFrame_of_bypass E n h).trans (ih (n + 1) ?_)
    rwa [processFrame_actCh, processFrame_dlLen]

/-- `k` stereo frames move both cursors by `k`, modulo the length (R211). -/
theorem processFrames_cursors (E : Env) (k n : Nat) {s : State} (hc : s.actCh = .stereo)
    (hw : s.dlWidx.toNat < s.dlLen.toNat) (hr : s.dlRidx.toNat < s.dlLen.toNat) :
    (processFrames E k n s).dlWidx.toNat = (s.dlWidx.toNat + k) % s.dlLen.toNat ∧
    (processFrames E k n s).dlRidx.toNat = (s.dlRidx.toNat + k) % s.dlLen.toNat := by
  induction k generalizing n s with
  | zero => exact ⟨(Nat.mod_eq_of_lt hw).symm, (Nat.mod_eq_of_lt hr).symm⟩
  | succ k ih =>
    have h0 : s.dlLen ≠ 0 := BitVec.toNat_ne_iff_ne.1 (Nat.ne_zero_of_lt hw)
    obtain ⟨hwidx, hridx⟩ := processFrame_cursors E n hc h0
    have hrest := ih (n + 1) (s := processFrame E n s) ((processFrame_actCh E n s).trans hc)
    rw [processFrame_dlLen, hwidx, hridx, toNat_advance_eq_mod _ h0, toNat_advance_eq_mod _ h0,
      Nat.mod_add_mod, Nat.mod_add_mod, Nat.add_assoc, Nat.add_assoc, Nat.add_comm 1 k] at hrest
    exact hrest (Nat.mod_lt _ (by omega)) (Nat.mod_lt _ (by omega))

/-- A PROCESS that ends with OK has run its frames: what it leaves of the line is what they leave (R260). -/
theorem process_of_err_ok (E : Env) {s : State} (h : (process E s).err = .ok) :
    s.inLen.toNat ≤ E.P.ibufBytes ∧ SameLine (processFrames E (frameCount s) 0 s) (process E s) ∧
    (process E s).outFrames = BitVec.ofNat 32 (frameCount s) := by
  rcases process_cases E s with ⟨-, hp⟩ | ⟨-, -, hp⟩ | ⟨hfsm, hlen⟩
  · rw [hp] at h; cases h
  · rw [hp] at h; cases h
  · rw [process_accepted E hfsm hlen]
    exact ⟨hlen, ⟨rfl, rfl, rfl⟩, rfl⟩

/-- Where the widener does not run on a line, a PROCESS keeps it, refused or not (R207, R208). -/
theorem sameLine_process_of_bypass (E : Env) {s : State} (h : s.actCh = .mono ∨ s.dlLen = 0) :
    SameLine s (process E s) := by
  rcases process_cases E s with ⟨-, hp⟩ | ⟨-, -, hp⟩ | ⟨hfsm, hlen⟩
  · rw [hp]; exact ⟨rfl, rfl, rfl⟩
  · rw [hp]; exact ⟨rfl, rfl, rfl⟩
  · rw [process_accepted E hfsm hlen]
    exact sameLine_processFrames_of_bypass E (frameCount s) 0 h

/-- The frames of an accepted PROCESS are counted in one word: their output fits OBUF (R9, R251). -/
theorem frameCount_lt {P : Params} (hP : P.Ok) {s : State} (h : s.inLen.toNat ≤ P.ibufBytes) :
    frameCount s < 2 ^ 32 := by
  have hfit := frameCount_le_obuf hP h
  obtain ⟨-, hobuf, -⟩ := hP.obufBytes
  have hcount : 1 ≤ 4 * s.actCh.count := by cases s.actCh <;> decide
  have hle := Nat.mul_le_mul_left (frameCount s) hcount
  omega

end Sys2Proof.Machine

namespace Sys2Proof

open Machine

/-- Settles O36: in mono the station of the widener is that of the chains, frame by frame. -/
theorem monoBypassesTheWidener : Obligations.MonoBypassesTheWidener := by
  refine ⟨fun s t hmono ht => ?_, fun n s hmono => ⟨?_, ?_⟩⟩
  · rw [exec_eq_result] at ht
    cases ht
    exact sameLine_process_of_bypass Config.env (.inl hmono)
  · rw [processFrame_eq, frameWide_mono _ n hmono, emitFrame_mono _ _ _ _ ((frameRight_actCh _ n s).trans hmono)]
    rfl
  · exact (fstOnly_frameRight Config.env n s).sameLine

/-- Settles O37: every frame moves the cursors by one, and OUT_FRAMES counts the frames. -/
theorem stereoFramesAdvanceTheCursors : Obligations.StereoFramesAdvanceTheCursors := by
  intro s t hstereo ht hok
  rw [exec_eq_result] at ht
  cases ht
  refine ⟨fun h0 => sameLine_process_of_bypass Config.env (.inr h0), fun _ hw hr => ?_⟩
  obtain ⟨hlen, ⟨-, hwidx, hridx⟩, hframes⟩ := process_of_err_ok Config.env hok
  have hcount : (BitVec.ofNat 32 (frameCount s)).toNat = frameCount s := by
    rw [BitVec.toNat_ofNat]
    exact Nat.mod_eq_of_lt (frameCount_lt Config.params_ok hlen)
  rw [result, hwidx, hridx, hframes, hcount]
  exact processFrames_cursors Config.env (frameCount s) 0 hstereo hw hr

end Sys2Proof
end

section
/-! The widener itself: its rule with the model's draws, and what it does to equal inputs over a cleared line
(R206, R207, R213). -/

namespace Sys2Proof.Machine

/-- The mid signal, step 1 of the rule (R206). -/
def midOf (E : Env) (l r : F64) (s : State) : F64 :=
  F64.div (nan64At E s 1) (F64.add (nan64At E s 0) l r) F64.two

/-- The side signal, step 1 of the rule (R206). -/
def sideOf (E : Env) (l r : F64) (s : State) : F64 :=
  F64.div (nan64At E s 3) (F64.sub (nan64At E s 2) l r) F64.two

/-- The side signal that is reconstructed: widened with a line, as it is without (R206, R207). -/
def sideOut (E : Env) (l r : F64) (s : State) : F64 :=
  if s.dlLen = 0 then sideOf E l r s
  else widenSide (fun i => nan64At E s (6 + i)) E.P.tune.spatialWidth (sideOf E l r s)
    ((s.dl.set s.dlWidx.toNat (sideOf E l r s)).getD s.dlRidx.toNat F64.zero)

/-- The outputs of the widener are mid plus and minus the side signal (R206, step 5). -/
theorem midSide_outputs (E : Env) (l r : F64) (s : State) :
    (midSide E l r s).1 = (F64.add (nan64At E s 4) (midOf E l r s) (sideOut E l r s),
      F64.sub (nan64At E s 5) (midOf E l r s) (sideOut E l r s)) := by
  by_cases h0 : s.dlLen = 0
  · simp only [midSide, sideOut, h0, if_true]
    rfl
  · simp only [midSide, sideOut, h0, if_false]
    rfl

theorem mem_of_mem_dl_midSide {E : Env} {l r v : F64} {s : State} (h : v ∈ (midSide E l r s).2.dl) :
    v ∈ s.dl ∨ v = sideOf E l r s := by
  by_cases h0 : s.dlLen = 0
  · rw [midSide_zeroLength E l r s h0] at h
    exact .inl h
  · rw [midSide_delay E l r s h0] at h
    exact List.mem_or_eq_of_mem_set h

/-! ### Equal inputs (R213) -/

/-- Widening `+0.0` with `+0.0` read back gives a zero, whose sign is that of the width. -/
theorem widenSide_zero (q : Nat → F64) {w : F64} (hw : F64.isFinite w = true) :
    F64.isFinite (widenSide q w F64.zero F64.zero) = true ∧ F64.val (widenSide q w F64.zero F64.zero) = 0 := by
  have hzero : F64.isFinite F64.zero = true := by decide
  have hmix : F64.mul (q 0) F64.zero F64.delayMix = F64.zero := by
    rw [F64.mul_of_isFinite _ hzero (by decide)]
    decide +kernel
  obtain ⟨hsum, -⟩ := F64.add_sub_zero_eq (x := F64.zero) (q 1) (q 1) (by decide) (by decide) hzero F64.val_zero
  rw [widenSide, hmix, hsum]
  exact F64.zero_mul_exact _ hw

section

variable {E : Env} {l : F64} {s : State}

theorem sideOf_self (E : Env) (s : State) (hl : F64.isFinite l = true) : sideOf E l l s = F64.zero := by
  rw [sideOf, F64.sub_self_eq_zero _ hl, F64.half_zero]

/-- The side signal of equal inputs stays a zero through a line of `+0.0`. -/
theorem sideOut_self (hP : E.P.Ok) (hl : F64.isFinite l = true) (hdl : ∀ v ∈ s.dl, v = F64.zero) :
    F64.isFinite (sideOut E l l s) = true ∧ F64.val (sideOut E l l s) = 0 := by
  rw [sideOut, sideOf_self E s hl]
  split
  · exact ⟨by decide, F64.val_zero⟩
  · have hread : (s.dl.set s.dlWidx.toNat F64.zero).getD s.dlRidx.toNat F64.zero = F64.zero := by
      rw [List.getD_eq_getElem?_getD]
      cases hget : (s.dl.set s.dlWidx.toNat F64.zero)[s.dlRidx.toNat]? with
      | none => rfl
      | some v => exact (List.mem_or_eq_of_mem_set (List.mem_of_getElem? hget)).elim (hdl v) id
    rw [hread]
    exact widenSide_zero _ hP.tune.spatialWidth

/-- The mid signal of equal inputs is the input, or an infinity where the sum overflows. -/
theorem midOf_self (E : Env) (s : State) (hl : F64.isFinite l = true) (hneg : l ≠ F64.negZero) :
    F64.isNaN (midOf E l l s) = false ∧ midOf E l l s ≠ F64.negZero ∧
    (F64.isFinite (F64.add F64.quietNaN l l) = true → midOf E l l s = l) := by
  have hsum : F64.add F64.quietNaN l l = F64.add (nan64At E s 0) l l := by
    rw [F64.add_of_isFinite _ hl hl, F64.add_of_isFinite _ hl hl]
  rw [hsum, midOf]
  rcases F64.mean_self_cases (nan64At E s 0) (nan64At E s 1) hl with ⟨-, hmid⟩ | ⟨hover, hinf⟩
  · rw [hmid]
    exact ⟨F64.isNaN_of_isFinite hl, hneg, fun _ => rfl⟩
  · refine ⟨F64.isNaN_of_isInf hinf, ?_, fun h => absurd h (by rw [hover]; decide)⟩
    intro h
    rw [h] at hinf
    exact absurd hinf (by decide)

end

end Sys2Proof.Machine

namespace Sys2Proof

open Machine

/-- Settles O58: the NaN patterns are the draws of the widener's nine operations. -/
theorem widenerFollowsItsRule : Obligations.WidenerFollowsItsRule := by
  refine fun E l r s => ⟨nan64At E s, fun _ => F64.isNaN_nanOf _, fun h0 => ?_, fun h0 => ?_⟩
  · refine Prod.ext ((midSide_outputs E l r s).trans ?_) (midSide_zeroLength E l r s h0)
    rw [sideOut, if_pos h0]
    rfl
  · refine Prod.ext ((midSide_outputs E l r s).trans ?_) (midSide_delay E l r s h0)
    rw [sideOut, if_neg h0]
    rfl

/-- Settles O59: the side signal is a zero, which neither output sees, and the mid signal is the input. -/
theorem equalInputsGiveEqualOutputs : Obligations.EqualInputsGiveEqualOutputs := by
  intro E s l hP hl hneg hdl r
  obtain ⟨hside, hside0⟩ := sideOut_self hP hl hdl
  obtain ⟨hnan, hmidneg, hmid⟩ := midOf_self E s hl hneg
  obtain ⟨hadd, hsub⟩ := F64.add_sub_zero_eq (nan64At E s 4) (nan64At E s 5) hnan hmidneg hside hside0
  have hout : r.1 = (midOf E l l s, midOf E l l s) := by
    rw [midSide_outputs, hadd, hsub]
  refine ⟨by rw [hout], fun v hv => ?_, fun hsum => by rw [hout, hmid hsum]⟩
  exact (mem_of_mem_dl_midSide hv).elim (hdl v) fun h => h.trans (sideOf_self E s hl)

end Sys2Proof
end

section
/-! The delay line holds no `-0.0`: the chains answer snapped values, whose difference is `+0.0` or far from
underflow, so halving it leaves no `-0.0` (R148, R206, R209). -/

namespace Sys2Proof.F64

open Rounding

/-! ### Snapped values -/

theorem snapped_iff_of_isFinite {x : F64} (hx : isFinite x = true) :
    Snapped x ↔ x = zero ∨ mag denormFloor ≤ mag x := by
  have hlt : lt (abs x) denormFloor = true ↔ mag x < mag denormFloor := by
    rw [lt_iff_key (by rw [isNaN_abs, isNaN_of_isFinite hx]) (by decide), key_abs, key,
      show sign denormFloor = false by decide, if_neg Bool.false_ne_true, Int.ofNat_lt]
  rw [Snapped, ← Bool.not_eq_true, hlt, not_lt]

theorem snapped_ne_negZero {x : F64} (h : Snapped x) : x ≠ negZero := by
  rintro rfl
  exact absurd ((snapped_iff_of_isFinite (by decide)).1 h) (by decide)

/-- Above the floor a significand is followed by at least one zero bit of the least unit. -/
theorem two_dvd_units_of_snapped {x : F64} (hx : isFinite x = true) (h : Snapped x) : 2 ∣ units x := by
  rcases (snapped_iff_of_isFinite hx).1 h with rfl | hfloor
  · decide
  obtain ⟨j, n, hmag, hn, hj⟩ := exists_scale 52 (mag x)
  have hj0 : j ≠ 0 := by
    rintro rfl
    have : 2 ^ (52 + 1) ≤ mag denormFloor := by decide
    omega
  rw [units_eq_gridUnits, hmag, gridUnits_scale hn.le hj]
  exact (dvd_pow_self 2 hj0).mul_left n

theorem two_dvd_signedUnits {x : F64} (h : 2 ∣ units x) : (2 : Int) ∣ signedUnits x := by
  have hcast : (2 : Int) ∣ units x := Int.natCast_dvd_natCast.2 h
  unfold signedUnits
  split
  · exact (Int.dvd_neg).2 hcast
  · exact hcast

/-- Two different snapped values lie at least two units apart. -/
theorem two_units_le_abs_sub {a b : F64} (ha : isFinite a = true) (hb : isFinite b = true) (hsa : Snapped a)
    (hsb : Snapped b) (hne : val a - val b ≠ 0) : 2 / 2 ^ 1074 ≤ |val a - val b| := by
  have hunit : (0 : ℚ) < 2 ^ 1074 := by positivity
  have hval : val a - val b = ((signedUnits a - signedUnits b : Int) : ℚ) / 2 ^ 1074 := by
    rw [val, val, ← sub_div, Int.cast_sub]
  obtain ⟨d, hd⟩ : (2 : Int) ∣ signedUnits a - signedUnits b :=
    dvd_sub (two_dvd_signedUnits (two_dvd_units_of_snapped ha hsa))
      (two_dvd_signedUnits (two_dvd_units_of_snapped hb hsb))
  have hd0 : d ≠ 0 := by
    rintro rfl
    exact hne (by rw [hval, hd, mul_zero, Int.cast_zero, zero_div])
  have hone : (1 : ℚ) ≤ |(d : ℚ)| := by exact_mod_cast Int.one_le_abs hd0
  rw [hval, hd, abs_div, abs_of_pos hunit, div_le_div_iff_of_pos_right hunit, Int.cast_mul, abs_mul,
    Int.cast_ofNat, abs_two]
  linarith

/-! ### The difference and its half -/

/-- A sum is finite only where both of its terms are. -/
theorem isFinite_of_isFinite_add {q a b : F64} (hq : isNaN q = true) (h : isFinite (add q a b) = true) :
    isFinite a = true ∧ isFinite b = true := by
  unfold add at h
  split_ifs at h with hnan ha hopposite hb
  · rw [not_isFinite_of_isNaN hq] at h
    cases h
  · rw [not_isFinite_of_isNaN hq] at h
    cases h
  · rw [not_isFinite_of_isInf ha] at h
    cases h
  · rw [not_isFinite_of_isInf hb] at h
    cases h
  · rw [Bool.or_eq_true, not_or] at hnan
    obtain ⟨hna, hnb⟩ := hnan
    exact ⟨((class_cases a).resolve_left hna).resolve_left ha,
      ((class_cases b).resolve_left hnb).resolve_left hb⟩

theorem isFinite_of_isFinite_sub {q a b : F64} (hq : isNaN q = true) (h : isFinite (sub q a b) = true) :
    isFinite a = true ∧ isFinite b = true := by
  rw [← isFinite_neg b]
  exact isFinite_of_isFinite_add hq h

theorem isFinite_of_isFinite_half {q x : F64} (hq : isNaN q = true) (h : isFinite (div q x two) = true) :
    isFinite x = true := by
  rcases class_cases x with hnan | hinf | hfinite
  · obtain ⟨-, -, -, hdiv, -⟩ := operations_of_isNaN q (b := two) (.inl hnan)
    rw [hdiv, not_isFinite_of_isNaN hq] at h
    cases h
  · rw [not_isFinite_of_isInf (isInf_half q hinf)] at h
    cases h
  · exact hfinite

theorem val_two_units : val 2#64 = 2 / 2 ^ 1074 := by
  rw [val, show signedUnits 2#64 = 2 by decide, Int.cast_ofNat]

theorem val_one_unit : val 1#64 = 1 / 2 ^ 1074 := by
  rw [val, show signedUnits 1#64 = 1 by decide, Int.cast_one]

/-- The difference of snapped values is `+0.0`, or two units or more, or not finite (R209). -/
theorem sub_snapped_cases {q a b : F64} (hq : isNaN q = true) (ha : Snapped a) (hb : Snapped b) :
    sub q a b = zero ∨ isFinite (sub q a b) = false ∨ 2 / 2 ^ 1074 ≤ |val (sub q a b)| := by
  by_cases hfinite : isFinite (sub q a b) = true
  swap
  · exact .inr (.inl (Bool.eq_false_iff.2 hfinite))
  obtain ⟨hfa, hfb⟩ := isFinite_of_isFinite_sub hq hfinite
  by_cases h0 : val a - val b = 0
  · rw [sub_eq_zero_of_val q hfa hfb h0, if_neg fun h => snapped_ne_negZero ha h.1]
    exact .inl rfl
  · rcases rounds64_cases (rounds64_sub q hfa hfb) with ⟨-, hnear⟩ | hinf
    · refine .inr (.inr ?_)
      rw [← val_two_units]
      exact le_abs_val_of_nearestEven64 hnear (by decide)
        (val_two_units ▸ two_units_le_abs_sub hfa hfb ha hb h0)
    · exact .inr (.inl (not_isFinite_of_isInf hinf))

/-- Half of two units or more is not rounded to a zero (R209). -/
theorem half_ne_negZero {q x : F64} (hq : isNaN q = true)
    (hx : x = zero ∨ isFinite x = false ∨ 2 / 2 ^ 1074 ≤ |val x|) : div q x two ≠ negZero := by
  intro h
  have hzero : isFinite (div q x two) = true := by rw [h]; decide
  have hfinite := isFinite_of_isFinite_half hq hzero
  rcases hx with rfl | hnot | hlarge
  · rw [half_zero] at h
    exact absurd h (by decide)
  · rw [hfinite] at hnot
    cases hnot
  rcases rounds64_cases (rounds64_half q hfinite) with ⟨-, hnear⟩ | hinf
  · have hhalf : val 1#64 ≤ |val x / 2| := by
      rw [val_one_unit, abs_div, abs_two, le_div_iff₀ two_pos, div_mul_eq_mul_div, one_mul]
      exact hlarge
    have hpos := le_abs_val_of_nearestEven64 hnear (by decide) hhalf
    rw [h, val_one_unit, val_eq_zero.2 (by decide : mag negZero = 0), abs_zero] at hpos
    exact absurd hpos (not_le.2 (by positivity))
  · rw [not_isFinite_of_isInf hinf] at hzero
    cases hzero

end Sys2Proof.F64

namespace Sys2Proof.Machine

/-- A chain answers the snapped output of its last stage (R148, R149). -/
theorem snapped_biquadChain (E : Env) (ch : Fin 2) (x : F64) (s : State) : (biquadChain E ch x s).1.Snapped :=
  snapped_snap _

/-- The side signal of two snapped values is never `-0.0` (R209). -/
theorem sideOf_ne_negZero (E : Env) {l r : F64} (s : State) (hl : l.Snapped) (hr : r.Snapped) :
    sideOf E l r s ≠ F64.negZero :=
  F64.half_ne_negZero (F64.isNaN_nanOf _) (F64.sub_snapped_cases (F64.isNaN_nanOf _) hl hr)

/-! ### The invariant, operation by operation -/

namespace State.DlNoNegZero

variable {s t : State}

/-- The invariant speaks of the delay line alone. -/
theorem congr (h : s.DlNoNegZero) (hdl : t.dl = s.dl) : t.DlNoNegZero := by
  rw [DlNoNegZero, hdl]
  exact h

theorem of_sameLine (h : s.DlNoNegZero) (ht : SameLine s t) : t.DlNoNegZero := h.congr ht.1

theorem of_coefOnly (h : s.DlNoNegZero) (ht : CoefOnly s t) : t.DlNoNegZero := h.congr (by rw [ht])

/-- A cleared line holds `+0.0` alone (R203). -/
theorem of_cleared {n : Nat} (hdl : t.dl = List.replicate n F64.zero) : t.DlNoNegZero := by
  intro v hv
  rw [hdl] at hv
  rw [List.eq_of_mem_replicate hv]
  decide

theorem midSide (h : s.DlNoNegZero) (E : Env) {l r : F64} (hl : l.Snapped) (hr : r.Snapped) :
    (midSide E l r s).2.DlNoNegZero := fun v hv =>
  (mem_of_mem_dl_midSide hv).elim (h v) fun hside => hside ▸ sideOf_ne_negZero E s hl hr

theorem processFrame (h : s.DlNoNegZero) (E : Env) (n : Nat) : (processFrame E n s).DlNoNegZero := by
  cases hc : s.actCh with
  | mono => exact h.of_sameLine (sameLine_processFrame_of_bypass E n (.inl hc))
  | stereo =>
    have hchains := h.of_sameLine (fstOnly_frameRight E n s).sameLine
    have hwide := hchains.midSide E (snapped_biquadChain E 0 (frameGained E n s).1 ((s.tick 2).tick 2))
      (snapped_biquadChain E 1 (frameGained E n s).2 (frameLeft E n s).2)
    refine of_sameLine ?_ (sameLine_processFrame E n s)
    rw [frameWide_stereo E n hc]
    exact hwide

theorem processFrames (E : Env) (k n : Nat) {s : State} (h : s.DlNoNegZero) :
    (processFrames E k n s).DlNoNegZero := by
  induction k generalizing n s with
  | zero => exact h
  | succ k ih => exact ih (n + 1) (h.processFrame E n)

/-! ### The invariant, command by command and event by event -/

theorem process (h : s.DlNoNegZero) (E : Env) : (process E s).DlNoNegZero := by
  rcases process_cases E s with ⟨-, hp⟩ | ⟨-, -, hp⟩ | ⟨hfsm, hlen⟩
  · rw [hp]; exact h.congr rfl
  · rw [hp]; exact h.congr rfl
  · rw [process_accepted E hfsm hlen]
    exact (processFrames E (frameCount s) 0 h).congr rfl

theorem configure (h : s.DlNoNegZero) (E : Env) : (configure E s).DlNoNegZero := by
  rcases configure_cases E s with ⟨code, hc⟩ | ⟨ch, enc, -, hc⟩
  · rw [hc]; exact h.congr rfl
  · rw [hc]; exact of_cleared rfl

theorem result (h : s.DlNoNegZero) (i : Instr) : (result i s).DlNoNegZero := by
  cases i with
  | nop => exact h.of_coefOnly (coefOnly_complete .ok s)
  | configure => exact h.configure Config.env
  | process => exact h.process Config.env
  | flush => exact of_cleared rfl
  | reset => exact of_cleared rfl
  | ldcoef stage => exact h.of_coefOnly (coefOnly_ldcoef stage s)
  | setls stage => exact h.of_coefOnly (coefOnly_setls _ stage s)
  | seths stage => exact h.of_coefOnly (coefOnly_seths _ stage s)
  | setpk stage => exact h.of_coefOnly (coefOnly_setpk _ stage s)

theorem wordResult (h : s.DlNoNegZero) (w : Word) : (wordResult w s).DlNoNegZero := by
  unfold Machine.wordResult
  split
  · exact h.result _
  · exact h.congr rfl

/-- The host reaches the line by a power-on alone, which empties it (R90, R340). -/
theorem hostEvent {E : Env} {ev : Input} (ht : hostEvent E ev s = .next t) (h : s.DlNoNegZero) :
    t.DlNoNegZero := by
  by_cases hev : ev = .powerOn
  · subst hev
    cases ht
    exact of_cleared (n := 0) rfl
  · exact h.congr (by rw [(HostFrame.hostEvent ht hev).staging])

end State.DlNoNegZero

end Sys2Proof.Machine

namespace Sys2Proof

open Machine in
/-- Settles O48: a step is nothing, one event from outside or one command; of these only a stereo frame writes the
line without clearing it, and it writes the side signal of two snapped values. -/
theorem stepKeepsTheDelayLineFreeOfNegativeZero : Obligations.StepKeepsTheDelayLineFreeOfNegativeZero := by
  intro s t h ht
  rcases step_cases ht with ⟨-, -, rfl⟩ | ⟨ev, rest, -, -, he⟩ | ⟨w, k, ev, rest, -, -, he⟩ | ⟨c, -, -, rfl⟩
  · exact h
  · exact State.DlNoNegZero.hostEvent he (h.congr rfl)
  · exact State.DlNoNegZero.hostEvent he (h.congr rfl)
  · exact h.wordResult c.word

end Sys2Proof
end

section
/-! The staging registers stand outside a PROCESS: each of its parts gives the same values from a state with other
staging registers, and leaves those registers as they are (R230, R354). -/

namespace Sys2Proof.Machine

/-- Values of the staging registers that a host writes between commands: CTRL, CFG_FS, CFG_FMT and OPD
(R41, R42, R45 to R47, R58). -/
structure Staging where
  clip : Clip
  floatPolicy : FloatPolicy
  fs : Word
  ch : BitVec 8
  enc : BitVec 2
  opd : Vector F64 5

/-- The state with those staging registers. -/
def State.withStaging (g : Staging) (s : State) : State :=
  { s with ctrlClip := g.clip, ctrlFloat := g.floatPolicy, cfgFs := g.fs, cfgCh := g.ch, cfgEnc := g.enc,
           opd := g.opd }

section

variable (E : Env) (g : Staging)

@[simp] theorem decodeFrame_withStaging (n : Nat) (s : State) :
    decodeFrame E n (s.withStaging g) = decodeFrame E n s := rfl

theorem biquadStep_withStaging (i : Fin 6) (x : F64) (s : State) :
    biquadStep E i x (s.withStaging g) = ((biquadStep E i x s).1, (biquadStep E i x s).2.withStaging g) := rfl

theorem biquadChain_withStaging (ch : Fin 2) (x : F64) (s : State) :
    biquadChain E ch x (s.withStaging g) = ((biquadChain E ch x s).1, (biquadChain E ch x s).2.withStaging g) := by
  simp only [biquadChain, biquadStep_withStaging]

theorem frameGained_withStaging (n : Nat) (s : State) :
    frameGained E n (s.withStaging g) = frameGained E n s := by
  rw [frameGained, decodeFrame_withStaging]
  rfl

theorem frameLeft_withStaging (n : Nat) (s : State) :
    frameLeft E n (s.withStaging g) = ((frameLeft E n s).1, (frameLeft E n s).2.withStaging g) := by
  rw [frameLeft, frameGained_withStaging]
  exact biquadChain_withStaging E g 0 _ ((s.tick 2).tick 2)

theorem frameRight_withStaging (n : Nat) (s : State) :
    frameRight E n (s.withStaging g) = ((frameRight E n s).1, (frameRight E n s).2.withStaging g) := by
  rw [frameRight, frameGained_withStaging, frameLeft_withStaging]
  exact biquadChain_withStaging E g 1 _ _

theorem midSide_withStaging (l r : F64) (s : State) :
    midSide E l r (s.withStaging g) = ((midSide E l r s).1, (midSide E l r s).2.withStaging g) := by
  by_cases h0 : s.dlLen = 0
  · have h0' : (s.withStaging g).dlLen = 0 := h0
    simp only [midSide, h0, h0', if_true]
    rfl
  · have h0' : (s.withStaging g).dlLen ≠ 0 := h0
    simp only [midSide, h0, h0', if_false]
    rfl

theorem widenFrame_withStaging (l r : F64) (s : State) :
    widenFrame E l r (s.withStaging g) = ((widenFrame E l r s).1, (widenFrame E l r s).2.withStaging g) := by
  cases hc : s.actCh with
  | mono => rw [widenFrame_mono E l r hc, widenFrame_mono E l r (s := s.withStaging g) hc]
  | stereo =>
    rw [widenFrame_stereo E l r hc, widenFrame_stereo E l r (s := s.withStaging g) hc, midSide_withStaging]

theorem frameWide_withStaging (n : Nat) (s : State) :
    frameWide E n (s.withStaging g) = ((frameWide E n s).1, (frameWide E n s).2.withStaging g) := by
  rw [frameWide, frameLeft_withStaging, frameRight_withStaging]
  exact widenFrame_withStaging E g _ _ _

/-- The limiting policy of an output sample is the latched one (R230). -/
theorem emit_withStaging (o : Nat) (v : F64) (s : State) :
    emit E o v (s.withStaging g) = (emit E o v s).withStaging g := rfl

theorem emitFrame_withStaging (n : Nat) (l r : F64) (s : State) :
    emitFrame E n l r (s.withStaging g) = (emitFrame E n l r s).withStaging g := by
  cases hc : s.actCh with
  | mono =>
    rw [emitFrame_mono E n l r hc, emitFrame_mono E n l r (s := s.withStaging g) hc, emit_withStaging]
  | stereo =>
    rw [emitFrame_stereo E n l r hc, emitFrame_stereo E n l r (s := s.withStaging g) hc, emit_withStaging,
      emit_withStaging]

theorem processFrame_withStaging (n : Nat) (s : State) :
    processFrame E n (s.withStaging g) = (processFrame E n s).withStaging g := by
  rw [processFrame_eq, frameWide_withStaging, emitFrame_withStaging, ← processFrame_eq]

theorem processFrames_withStaging (k n : Nat) (s : State) :
    processFrames E k n (s.withStaging g) = (processFrames E k n s).withStaging g := by
  induction k generalizing n s with
  | zero => rfl
  | succ k ih => rw [processFrames, processFrame_withStaging, ih, processFrames]

/-- A PROCESS, refused or not, neither reads nor writes the staging registers (R230, R354). -/
theorem process_withStaging (s : State) :
    process E (s.withStaging g) = (process E s).withStaging g := by
  rcases process_cases E s with ⟨hfsm, hp⟩ | ⟨hfsm, hlen, hp⟩ | ⟨hfsm, hlen⟩
  · rw [hp, process, if_pos (show (s.withStaging g).fsm = .unconfigured from hfsm)]
    rfl
  · rw [hp, process, if_neg (show (s.withStaging g).fsm ≠ .unconfigured from hfsm),
      if_pos (show E.P.ibufBytes < (s.withStaging g).inLen.toNat from hlen)]
    rfl
  · rw [process_accepted E hfsm hlen, process_accepted E (s := s.withStaging g) hfsm hlen,
      show frameCount (s.withStaging g) = frameCount s from rfl, processFrames_withStaging]
    rfl

end

end Sys2Proof.Machine

namespace Sys2Proof

open Machine

/-- Settles O35: a PROCESS commutes with a change of the staging registers, part by part. -/
theorem stagingDoesNotReachProcess : Obligations.StagingDoesNotReachProcess := by
  intro s t clip pol fs ch enc opd ht
  rw [exec_eq_result] at ht ⊢
  cases ht
  exact congrArg _ (process_withStaging Config.env ⟨clip, pol, fs, ch, enc, opd⟩ s)

end Sys2Proof
end

section
/-! Rounding keeps the order: a larger exact magnitude never rounds to a smaller pattern, in any format (R12). -/

namespace Sys2Proof.Rounding

/-- Nearest patterns come in the order of the exact magnitudes. -/
theorem NearestPattern.le {f d m n a b : Nat} (ha : NearestPattern f d m a) (hb : NearestPattern f d n b)
    (hmn : m ≤ n) : a ≤ b := by
  by_contra! hba
  obtain ⟨k, rfl⟩ := Nat.exists_eq_add_one_of_ne_zero (Nat.ne_zero_of_lt hba)
  have hlow := ha.1 k rfl
  have hup := hb.2
  rcases (Nat.le_of_lt_succ hba).lt_or_eq with hlt | rfl
  · -- The midpoint above `b` lies strictly below the midpoint under `k + 1`.
    have hb0 := gridUnits_strictMono f hlt
    have hb1 := gridUnits_strictMono f (Nat.succ_lt_succ hlt)
    have hmid : (gridUnits f b + gridUnits f (b + 1)) * 2 ^ d < (gridUnits f k + gridUnits f (k + 1)) * 2 ^ d :=
      Nat.mul_lt_mul_of_pos_right (Nat.add_lt_add hb0 hb1) (by positivity)
    omega
  · -- The two share a midpoint, and a tie goes to the even one alone.
    omega

theorem roundUnits_mono {f : Nat} (hf : 1 ≤ f) (d inf : Nat) : Monotone (roundUnits (f + 1) d inf) := by
  intro m n hmn
  obtain ⟨a, hm, ha⟩ := exists_nearestPattern_roundUnits hf d inf m
  obtain ⟨b, hn, hb⟩ := exists_nearestPattern_roundUnits hf d inf n
  rw [hm, hn]
  exact min_le_min_left inf (ha.le hb hmn)

@[simp] theorem roundUnits_zero (f d inf : Nat) : roundUnits (f + 1) d inf 0 = 0 := by
  simp [roundUnits, rne]

/-! ### Signed magnitudes -/

/-- What orders a sign and a magnitude pattern in either format: `F64.key` and `F32.key`. -/
def signedMag (s : Bool) (m : Nat) : Int := if s then -(m : Int) else (m : Int)

/-- A monotone map of magnitudes that keeps 0 also keeps the order of signed magnitudes. -/
theorem signedMag_map_le {φ : Nat → Nat} (hφ : Monotone φ) (h0 : φ 0 = 0) {s t : Bool} {m n : Nat}
    (h : signedMag s m ≤ signedMag t n) : signedMag s (φ m) ≤ signedMag t (φ n) := by
  cases s <;> cases t <;> simp only [signedMag, if_true, if_false, Bool.false_eq_true] at h ⊢
  case false.false =>
    exact Int.ofNat_le.2 (hφ (Int.ofNat_le.1 h))
  case false.true =>
    obtain ⟨rfl, rfl⟩ : m = 0 ∧ n = 0 := by omega
    simp [h0]
  case true.false => omega
  case true.true =>
    exact neg_le_neg (Int.ofNat_le.2 (hφ (Int.ofNat_le.1 (neg_le_neg_iff.1 h))))

/-! ### Magnitude patterns of binary64 scaled into a format -/

/-- The binary64 magnitude pattern `m` times `k`, rounded to the format of `f` stored bits and the infinity
pattern `inf`; the infinite magnitude stays infinite. -/
def scaledMag (f d inf k m : Nat) : Nat :=
  if m < F64.infMag then roundUnits (f + 1) d inf (gridUnits 52 m * k) else inf

theorem scaledMag_le (f d inf k m : Nat) : scaledMag f d inf k m ≤ inf := by
  unfold scaledMag
  split
  · exact Nat.min_le_left _ _
  · exact le_rfl

@[simp] theorem scaledMag_zero (f d inf k : Nat) : scaledMag f d inf k 0 = 0 := by
  rw [scaledMag, if_pos (by decide), gridUnits_zero, Nat.zero_mul, roundUnits_zero]

theorem scaledMag_mono {f : Nat} (hf : 1 ≤ f) (d inf k : Nat) : Monotone (scaledMag f d inf k) := by
  intro m n hmn
  by_cases hn : n < F64.infMag
  · rw [scaledMag, scaledMag, if_pos hn, if_pos (hmn.trans_lt hn)]
    exact roundUnits_mono hf d inf (Nat.mul_le_mul_right k ((gridUnits_strictMono 52).monotone hmn))
  · rw [show scaledMag f d inf k n = inf from if_neg hn]
    exact scaledMag_le f d inf k m

end Sys2Proof.Rounding
end

section
/-! The limiter's three stations, each as a map of the sign and of the magnitude pattern: the output gain, the
policy and the narrowing. Each keeps the order, so the limiter does (R231 to R238). -/

namespace Sys2Proof.F64

open Rounding

theorem key_eq_signedMag (x : F64) : key x = signedMag (sign x) (mag x) := rfl

theorem le_iff_key {a b : F64} : le a b = true ↔ isNaN a = false ∧ isNaN b = false ∧ key a ≤ key b := by
  simp [le, and_assoc]

theorem sign_of_val_pos {x : F64} (h : 0 < val x) : sign x = false := by
  by_contra hs
  rw [Bool.not_eq_false] at hs
  rw [val_eq_signed, hs, signed, if_pos rfl, neg_div] at h
  exact absurd h (not_lt.2 (neg_nonpos.2 (by positivity)))

theorem sign_of_val_neg {x : F64} (h : val x < 0) : sign x = true := by
  by_contra hs
  rw [Bool.not_eq_true] at hs
  rw [val_of_sign_false hs] at h
  exact absurd h (not_lt.2 (by positivity))

/-- A finite gain other than 0 scales the magnitude and multiplies the signs, infinities included. -/
theorem mul_eq_pack (q : F64) {v g : F64} (hg : isFinite g = true) (h0 : val g ≠ 0) (hv : isNaN v = false) :
    mul q v g = pack (sign v != sign g) (scaledMag 52 1074 infMag (units g) (mag v)) := by
  rcases class_cases v with hnan | hinf | hfinite
  · rw [hv] at hnan
    cases hnan
  · obtain ⟨-, -, -, -, hmul, -⟩ := operations_of_isInf_isFinite q hinf hg
    rw [hmul, if_neg h0, scaledMag, if_neg (isInf_iff.1 hinf).not_lt]
  · rw [mul_of_isFinite q hfinite hg, scaledMag, if_pos (isFinite_iff.1 hfinite)]
    rfl

section

variable (q : F64) {v g : F64} (hg : isFinite g = true) (h0 : val g ≠ 0) (hv : isNaN v = false)
include hg h0 hv

theorem isNaN_mul_gain : isNaN (mul q v g) = false := by
  have hle := scaledMag_le 52 1074 infMag (units g) (mag v)
  rw [mul_eq_pack q hg h0 hv, isNaN, mag_pack _ (hle.trans_lt infMag_lt)]
  exact decide_eq_false hle.not_gt

theorem sign_mul_gain : sign (mul q v g) = (sign v != sign g) := by
  rw [mul_eq_pack q hg h0 hv, sign_pack _ ((scaledMag_le _ _ _ _ _).trans_lt infMag_lt)]

theorem mag_mul_gain : mag (mul q v g) = scaledMag 52 1074 infMag (units g) (mag v) := by
  rw [mul_eq_pack q hg h0 hv, mag_pack _ ((scaledMag_le _ _ _ _ _).trans_lt infMag_lt)]

end

/-- A positive gain keeps the order (R238). -/
theorem mul_gain_le (q : F64) {v v' g : F64} (hg : isFinite g = true) (h0 : 0 < val g)
    (h : le v v' = true) : le (mul q v g) (mul q v' g) = true := by
  obtain ⟨hv, hv', hkey⟩ := le_iff_key.1 h
  refine le_iff_key.2 ⟨isNaN_mul_gain q hg h0.ne' hv, isNaN_mul_gain q hg h0.ne' hv', ?_⟩
  rw [key_eq_signedMag (mul q v g), key_eq_signedMag (mul q v' g), sign_mul_gain q hg h0.ne' hv,
    sign_mul_gain q hg h0.ne' hv', mag_mul_gain q hg h0.ne' hv, mag_mul_gain q hg h0.ne' hv', sign_of_val_pos h0,
    Bool.bne_false, Bool.bne_false]
  exact signedMag_map_le (scaledMag_mono (by decide) _ _ _) (scaledMag_zero _ _ _ _) hkey

/-- A gain of 0 gives a zero (R238). -/
theorem mul_zero_gain (q : F64) {v g : F64} (hv : isFinite v = true) (hg : isFinite g = true) (h0 : val g = 0) :
    isNaN (mul q v g) = false ∧ mag (mul q v g) = 0 := by
  have hzero : roundMag 1074 (units v * units g) = 0 := by
    rw [units_eq_zero.2 (val_eq_zero.1 h0), Nat.mul_zero]
    exact roundUnits_zero 52 1074 infMag
  rw [mul_of_isFinite q hv hg]
  exact ⟨isNaN_pack_roundMag _ _ _, by rw [mag_pack _ (roundMag_lt _ _), hzero]⟩

end Sys2Proof.F64

namespace Sys2Proof

open Rounding

/-! ### The narrowing -/

/-- Narrowing scales the magnitude and keeps the sign, infinities included (R186). -/
theorem narrow_eq_pack (q : F32) {v : F64} (hv : F64.isNaN v = false) :
    narrow q v = F32.pack (F64.sign v) (scaledMag 23 925 F32.infMag 1 (F64.mag v)) := by
  rcases F64.class_cases v with hnan | hinf | hfinite
  · rw [hv] at hnan
    cases hnan
  · rw [narrow_of_isInf q hinf, scaledMag, if_neg (F64.isInf_iff.1 hinf).not_lt]
  · rw [narrow_of_isFinite q hfinite, scaledMag, if_pos (F64.isFinite_iff.1 hfinite), Nat.mul_one]
    rfl

section

variable (q : F32) {v : F64} (hv : F64.isNaN v = false)
include hv

theorem isNaN_narrow : F32.isNaN (narrow q v) = false := by
  have hle := scaledMag_le 23 925 F32.infMag 1 (F64.mag v)
  rw [narrow_eq_pack q hv]
  exact F32.isNaN_of_mag_le (by rwa [F32.mag_pack _ (hle.trans_lt F32.infMag_lt)])

theorem sign_narrow : F32.sign (narrow q v) = F64.sign v := by
  rw [narrow_eq_pack q hv, F32.sign_pack _ ((scaledMag_le _ _ _ _ _).trans_lt F32.infMag_lt)]

theorem mag_narrow : F32.mag (narrow q v) = scaledMag 23 925 F32.infMag 1 (F64.mag v) := by
  rw [narrow_eq_pack q hv, F32.mag_pack _ ((scaledMag_le _ _ _ _ _).trans_lt F32.infMag_lt)]

end

theorem F32.key_eq_signedMag (w : F32) : key w = signedMag (sign w) (mag w) := rfl

/-- Narrowing keeps the order (R186, R238). -/
theorem key_narrow_le (q : F32) {a b : F64} (h : F64.le a b = true) :
    F32.key (narrow q a) ≤ F32.key (narrow q b) := by
  obtain ⟨ha, hb, hkey⟩ := F64.le_iff_key.1 h
  rw [F32.key_eq_signedMag, F32.key_eq_signedMag, sign_narrow q ha, sign_narrow q hb, mag_narrow q ha,
    mag_narrow q hb]
  exact signedMag_map_le (scaledMag_mono (by decide) _ _ _) (scaledMag_zero _ _ _ _) hkey

namespace Machine

open F64

/-! ### The policies -/

theorem key_lt_neg_iff {x : F64} {m : Nat} : key x < -(m : Int) ↔ sign x = true ∧ m < mag x := by
  unfold key
  cases sign x <;> simp

theorem lt_key_iff {x : F64} {m : Nat} : (m : Int) < key x ↔ sign x = false ∧ m < mag x := by
  unfold key
  cases sign x <;> simp

/-- The hard clamp keeps the sign and cuts the magnitude at 0.99 (R233). -/
theorem hardClamp_sign_mag {u : F64} (hu : isNaN u = false) :
    sign (hardClamp u) = sign u ∧ mag (hardClamp u) = min (mag u) (mag clampLimit) := by
  have hkey : key clampLimit = mag clampLimit := by decide
  have hbelow : lt u (neg clampLimit) = true ↔ sign u = true ∧ mag clampLimit < mag u := by
    rw [lt_iff_key hu (by decide), key_neg, hkey, key_lt_neg_iff]
  have habove : lt clampLimit u = true ↔ sign u = false ∧ mag clampLimit < mag u := by
    rw [lt_iff_key (by decide) hu, hkey, lt_key_iff]
  unfold hardClamp
  split_ifs with hlow hhigh
  · obtain ⟨hs, hm⟩ := hbelow.1 hlow
    exact ⟨by rw [hs]; decide, by rw [mag_neg, min_eq_right hm.le]⟩
  · obtain ⟨hs, hm⟩ := habove.1 hhigh
    exact ⟨by rw [hs]; decide, by rw [min_eq_right hm.le]⟩
  · refine ⟨rfl, (min_eq_left (not_lt.1 fun hm => ?_)).symm⟩
    cases hs : sign u with
    | false => exact hhigh (habove.2 ⟨hs, hm⟩)
    | true => exact hlow (hbelow.2 ⟨hs, hm⟩)

theorem hardClamp_of_isNaN {u : F64} (hu : isNaN u = true) : hardClamp u = u := by
  have hlow : lt u (neg clampLimit) = false := by simp [lt, hu]
  have hhigh : lt clampLimit u = false := by simp [lt, hu]
  simp [hardClamp, hlow, hhigh]

/-- The largest value that a policy answers (R233, R234). -/
def limitBound : Clip → F64
  | .hard => clampLimit
  | .soft => one

section

variable {P : Params} (hP : TanhOk P.tanh64) (c : Clip) {u : F64}
include hP

theorem limitPolicy_of_isNaN (hu : isNaN u = true) : isNaN (limitPolicy P c u) = true := by
  cases c with
  | hard => rw [limitPolicy, hardClamp_of_isNaN hu, hu]
  | soft => exact hP.nan u hu

theorem sign_limitPolicy (hu : isNaN u = false) : sign (limitPolicy P c u) = sign u := by
  cases c with
  | hard => exact (hardClamp_sign_mag hu).1
  | soft => exact hP.sign u hu

theorem mag_limitPolicy_le (hu : isNaN u = false) : mag (limitPolicy P c u) ≤ mag (limitBound c) := by
  cases c with
  | hard =>
    rw [limitPolicy, (hardClamp_sign_mag hu).2]
    exact min_le_right _ _
  | soft =>
    obtain ⟨-, -, hkey⟩ := le_iff_key.1 (hP.bounded u hu)
    rw [key_abs, show key one = mag one by decide] at hkey
    exact Int.ofNat_le.1 hkey

theorem isNaN_limitPolicy (hu : isNaN u = false) : isNaN (limitPolicy P c u) = false := by
  have hbound : mag (limitBound c) ≤ infMag := by cases c <;> decide
  exact decide_eq_false ((mag_limitPolicy_le hP c hu).trans hbound).not_gt

/-- Both policies take each zero to itself (R233, R234). -/
theorem limitPolicy_of_mag_zero (h0 : mag u = 0) : limitPolicy P c u = u := by
  have hu : u = zero ∨ u = negZero := by
    cases hs : sign u with
    | false => exact .inl (eq_zero_iff.2 ⟨hs, h0⟩)
    | true => exact .inr (eq_negZero_iff.2 ⟨hs, h0⟩)
  cases c with
  | hard =>
    rw [limitPolicy]
    rcases hu with rfl | rfl <;> decide
  | soft =>
    rcases hu with rfl | rfl
    · exact hP.posZero
    · exact hP.negZero

/-- Both policies keep the order (R238). -/
theorem limitPolicy_le {u' : F64} (h : le u u' = true) : le (limitPolicy P c u) (limitPolicy P c u') = true := by
  cases c with
  | soft => exact hP.mono u u' h
  | hard =>
    obtain ⟨hu, hu', hkey⟩ := le_iff_key.1 h
    obtain ⟨hs, hm⟩ := hardClamp_sign_mag hu
    obtain ⟨hs', hm'⟩ := hardClamp_sign_mag hu'
    refine le_iff_key.2 ⟨isNaN_limitPolicy hP .hard hu, isNaN_limitPolicy hP .hard hu', ?_⟩
    rw [limitPolicy, limitPolicy, key_eq_signedMag, key_eq_signedMag, hs, hs', hm, hm']
    exact signedMag_map_le (fun _ _ hmn => min_le_min_right _ hmn) (Nat.zero_min _) hkey

end

/-! ### The limiter -/

section

variable {P : Params} (hP : TanhOk P.tanh64) (c : Clip) {q : F64} (q32 : F32) {v : F64}
include hP

theorem limitWith_of_isNaN (hu : isNaN (mul q v P.tune.outputGain) = true) : limitWith P c q q32 v = q32 :=
  narrow_of_isNaN q32 (limitPolicy_of_isNaN hP c hu)

theorem isNaN_limitWith (hu : isNaN (mul q v P.tune.outputGain) = false) :
    F32.isNaN (limitWith P c q q32 v) = false :=
  isNaN_narrow q32 (isNaN_limitPolicy hP c hu)

theorem sign_limitWith (hu : isNaN (mul q v P.tune.outputGain) = false) :
    F32.sign (limitWith P c q q32 v) = sign (mul q v P.tune.outputGain) :=
  (sign_narrow q32 (isNaN_limitPolicy hP c hu)).trans (sign_limitPolicy hP c hu)

/-- The output lies between the narrowed bound of the policy and its negative (R236, R237). -/
theorem key_limitWith_between (hu : isNaN (mul q v P.tune.outputGain) = false) :
    -(F32.mag (narrow q32 (limitBound c)) : Int) ≤ F32.key (limitWith P c q q32 v) ∧
    F32.key (limitWith P c q q32 v) ≤ F32.mag (narrow q32 (limitBound c)) := by
  have hmag : F32.mag (limitWith P c q q32 v) ≤ F32.mag (narrow q32 (limitBound c)) := by
    rw [limitWith, fpToPcm, mag_narrow q32 (isNaN_limitPolicy hP c hu),
      mag_narrow q32 (by cases c <;> decide)]
    exact scaledMag_mono (by decide) _ _ _ (mag_limitPolicy_le hP c hu)
  unfold F32.key
  split <;> omega

/-- A gained value of zero is narrowed as it is. -/
theorem limitWith_of_mag_zero (hu : isNaN (mul q v P.tune.outputGain) = false)
    (h0 : mag (mul q v P.tune.outputGain) = 0) :
    limitWith P c q q32 v = F32.pack (sign (mul q v P.tune.outputGain)) 0 := by
  rw [limitWith, fpToPcm, limitPolicy_of_mag_zero hP c h0, narrow_eq_pack q32 hu, h0, scaledMag_zero]

/-- The limiter keeps the order of gained values (R238). -/
theorem key_limitWith_le {v' : F64}
    (h : le (mul q v P.tune.outputGain) (mul q v' P.tune.outputGain) = true) :
    F32.key (limitWith P c q q32 v) ≤ F32.key (limitWith P c q q32 v') :=
  key_narrow_le q32 (limitPolicy_le hP c h)

end

theorem narrow_limitBound (q32 : F32) :
    narrow q32 (limitBound .hard) = 0x3F7D70A4 ∧ narrow q32 (limitBound .soft) = 0x3F800000 := by
  rw [narrow_eq_pack q32 (by decide), narrow_eq_pack q32 (by decide)]
  decide +kernel

end Machine

open Machine F64

/-- Settles O60: the gain, the policy and the narrowing each bound, keep the sign and keep the order. -/
theorem limiterOutputIsBounded : Obligations.LimiterOutputIsBounded := by
  intro P q q32 hP _ _ g
  have hT := hP.tanh64
  have hg : isFinite g = true := hP.tune.outputGain
  obtain ⟨hhard, hsoft⟩ := narrow_limitBound q32
  refine ⟨fun v hu => ⟨?_, ?_⟩, fun c v => limitWith_of_isNaN hT c q32, fun c v hpos hv => ?_, fun c hpos => ?_,
    fun c v v' hpos hle => ?_, fun c v hneg hv => ?_, fun c v h0 hv => ?_⟩
  · have hbound := key_limitWith_between hT .hard q32 hu
    rw [hhard] at hbound
    exact ⟨isNaN_limitWith hT .hard q32 hu, hbound⟩
  · have hbound := key_limitWith_between hT .soft q32 hu
    rw [hsoft] at hbound
    exact ⟨isNaN_limitWith hT .soft q32 hu, hbound⟩
  · rw [sign_limitWith hT c q32 (isNaN_mul_gain q hg hpos.ne' hv), sign_mul_gain q hg hpos.ne' hv,
      sign_of_val_pos hpos, Bool.bne_false]
  · have hzero : isNaN zero = false := by decide
    have hmag : mag (mul q zero g) = 0 := (mag_mul_gain q hg hpos.ne' hzero).trans (scaledMag_zero _ _ _ _)
    rw [limitWith_of_mag_zero hT c q32 (isNaN_mul_gain q hg hpos.ne' hzero) hmag,
      sign_mul_gain q hg hpos.ne' hzero, sign_of_val_pos hpos]
    rfl
  · exact key_limitWith_le hT c q32 (mul_gain_le q hg hpos hle)
  · rw [sign_limitWith hT c q32 (isNaN_mul_gain q hg hneg.ne hv), sign_mul_gain q hg hneg.ne hv,
      sign_of_val_neg hneg, Bool.bne_true]
  · obtain ⟨hnan, hmag⟩ := mul_zero_gain q hv hg h0
    rw [limitWith_of_mag_zero hT c q32 hnan hmag, F32.mag_pack _ (by decide)]

end Sys2Proof
end

section
/-! The lifecycle commands: the format that the checks of CONFIGURE negotiate, the whole effect of CONFIGURE, FLUSH
and RESET, and that a cleared machine is a fixed point of FLUSH (R254 to R257, R262 to R264, R266). -/

namespace Sys2Proof.Machine

/-- A number that fits a register is the register's value. -/
theorem toNat_ofNat_word {n : Nat} (h : n < 2 ^ 32) : (BitVec.ofNat 32 n).toNat = n := by
  rw [BitVec.toNat_ofNat]
  exact Nat.mod_eq_of_lt h

/-! ### The initial cursor -/

/-- The model's read cursor is the non-negative remainder of the rule (R11, R202). -/
theorem initialReadCursor_eq_readCursor (L D : Nat) : initialReadCursor L D = Claims.readCursor L D := by
  unfold initialReadCursor Claims.readCursor
  split
  · rfl
  next h0 =>
  have hle : D % L ≤ L := (Nat.mod_lt D (Nat.pos_of_ne_zero h0)).le
  have hrem : ((L - D % L : Nat) : Int) % (L : Int) = ((L : Int) - (D : Int)) % (L : Int) := by
    rw [Nat.cast_sub hle, Int.natCast_mod, Int.sub_emod_emod]
  rw [← hrem, ← Int.natCast_mod, Int.toNat_natCast]

theorem initialReadCursor_le (len delay : Nat) : initialReadCursor len delay ≤ len := by
  by_cases h0 : len = 0
  · rw [initialReadCursor, if_pos h0]
    exact Nat.zero_le _
  · exact (initialReadCursor_lt delay h0).le

/-! ### The checks of CONFIGURE -/

/-- The format that CFG_FMT names where the checks pass (R46, R47). -/
def negotiated (s : State) : Channels × Enc :=
  (if s.cfgCh = 1 then .mono else .stereo, if s.cfgEnc = 0 then .pcm16 else .pcmFloat)

theorem channelsOf_cases {s : State} (h0 : s.cfgCh ≠ 0) :
    (2 < s.cfgCh.toNat ∧ channelsOf s.cfgCh = none) ∨
    (s.cfgCh.toNat ≤ 2 ∧ channelsOf s.cfgCh = some (negotiated s).1) := by
  simp only [negotiated, channelsOf]
  by_cases h1 : s.cfgCh = 1
  · exact .inr (by simp [h1])
  by_cases h2 : s.cfgCh = 2
  · exact .inr (by simp [h2])
  · exact .inl ⟨by bv_omega, by rw [if_neg h1, if_neg h2]⟩

theorem encOf_cases (s : State) :
    (2 ≤ s.cfgEnc.toNat ∧ encOf s.cfgEnc = none) ∨
    (s.cfgEnc.toNat < 2 ∧ encOf s.cfgEnc = some (negotiated s).2 ∧
      ((negotiated s).2 = .pcmFloat ↔ s.cfgEnc = 1)) := by
  simp only [negotiated, encOf]
  by_cases h0 : s.cfgEnc = 0
  · exact .inr (by simp [h0])
  by_cases h1 : s.cfgEnc = 1
  · exact .inr (by simp [h1])
  · exact .inl ⟨by bv_omega, by rw [if_neg h0, if_neg h1]⟩

/-- The checks answer the code of the rule's table, or else the format that CFG_FMT names (R256). -/
theorem configureCheck_eq (E : Env) (s : State) :
    configureCheck E s = (Claims.configureCode E.P s).elim (.ok (negotiated s)) .error := by
  have hlength : Claims.lengthAt s.cfgFs = delayLength (rateOperand s) := rfl
  rw [configureCheck, Claims.configureCode, hlength]
  by_cases hzero : s.cfgFs = 0 ∨ s.cfgCh = 0
  · rw [if_pos hzero, if_pos hzero, Option.elim_some]
  rw [if_neg hzero, if_neg hzero]
  rcases channelsOf_cases (not_or.1 hzero).2 with ⟨hch, hchOf⟩ | ⟨hch, hchOf⟩
  · rw [hchOf, if_pos (.inl hch), Option.elim_some]
  rcases encOf_cases s with ⟨henc, hencOf⟩ | ⟨henc, hencOf, hfloat⟩
  · rw [hchOf, hencOf, if_pos (.inr henc), Option.elim_some]
  · rw [hchOf, hencOf, if_neg (by omega : ¬ (2 < s.cfgCh.toNat ∨ 2 ≤ s.cfgEnc.toNat))]
    simp only [hfloat]
    split_ifs <;> rfl

/-- A CONFIGURE whose check fails is rejected with the code of the check (R256, R257). -/
theorem configure_of_code {E : Env} {s : State} {code : ErrCode} (h : Claims.configureCode E.P s = some code) :
    configure E s = s.reject code := by
  rw [configure, configureCheck_eq, h, Option.elim_some]

/-- A CONFIGURE whose checks pass is accepted (R255). -/
theorem configure_of_none {E : Env} {s : State} (h : Claims.configureCode E.P s = none) :
    configure E s = configureAccept E (negotiated s).1 (negotiated s).2 s := by
  rw [configure, configureCheck_eq, h, Option.elim_none]

/-- The line of an accepted CONFIGURE fits DL_MAX (R256). -/
theorem lengthAt_le_of_configureCode {P : Params} {s : State} (h : Claims.configureCode P s = none) :
    Claims.lengthAt s.cfgFs ≤ P.dlMax := by
  unfold Claims.configureCode at h
  split_ifs at h with _ _ _ hfit
  exact Nat.le_of_not_lt hfit

/-- No check of the table answers OK (R256). -/
theorem configureCode_ne_ok (P : Params) (s : State) : Claims.configureCode P s ≠ some .ok := by
  unfold Claims.configureCode
  split_ifs <;> simp

/-! ### A cleared machine -/

theorem Fsm.flushed_eq_ite (f : Fsm) : f.flushed = if f = .processing then .configured else f := by
  cases f <;> rfl

/-- What FLUSH leaves of the state it writes (R262). -/
structure Flushed (s : State) : Prop where
  pending : s.pending = none
  fsm : s.fsm.flushed = s.fsm
  err : s.err = .ok
  fst : s.fst = Vector.replicate 6 Hist.zero
  dl : s.dl = List.replicate s.dlLen.toNat F64.zero
  dlWidx : s.dlWidx = 0
  dlRidx : s.dlRidx = BitVec.ofNat 32 (initialReadCursor s.dlLen.toNat s.dlDelay.toNat)

theorem flushed_flush (s : State) : Flushed (flush s) :=
  ⟨rfl, by cases h : s.fsm <;> simp [flush, h, Fsm.flushed], rfl, rfl, rfl, rfl, rfl⟩

theorem flushed_configureAccept (E : Env) (ch : Channels) (enc : Enc) (s : State) :
    Flushed (configureAccept E ch enc s) :=
  ⟨rfl, rfl, rfl, rfl, rfl, rfl, rfl⟩

/-- FLUSH leaves a cleared machine as it is (R263, R264). -/
theorem Flushed.flush_eq {s : State} (h : Flushed s) : flush s = s := by
  obtain ⟨hpending, hfsm, herr, hfst, hdl, hw, hr⟩ := h
  cases s
  simp only at hpending hfsm herr hfst hdl hw hr
  simp only [flush, clearFst, dlInit, State.complete, hfsm, hpending, herr, hfst, hdl, hw, hr]

theorem Flushed.exec_flush {s : State} (h : Flushed s) : exec .flush s = .next s :=
  congrArg Host.Outcome.next h.flush_eq

theorem Flushed.cleared {s : State} (h : Flushed s) : Claims.Cleared s := by
  refine ⟨fun i => ?_, fun v hv => ?_⟩
  · rw [State.fstAt, h.fst, Vector.get_eq_getElem, Vector.getElem_replicate]
    rfl
  · rw [h.dl] at hv
    exact List.eq_of_mem_replicate hv

end Sys2Proof.Machine

namespace Sys2Proof

open Machine

/-- Settles O22: the fields of the word are 0, and NOP is its completion. -/
theorem nopOnlySetsErr : Obligations.NopOnlySetsErr :=
  ⟨by decide, fun _ => rfl⟩

/-- Settles O23: the model's FLUSH, with its read cursor as the remainder of the rule. -/
theorem flushEffect : Obligations.FlushEffect := by
  refine ⟨by decide, fun s => ?_⟩
  rw [← initialReadCursor_eq_readCursor, ← Fsm.flushed_eq_ite]
  rfl

/-- Settles O24: both commands leave a cleared machine, which FLUSH leaves as it is. -/
theorem flushIsIdempotent : Obligations.FlushIsIdempotent := by
  refine ⟨fun s t ht => ?_, fun s t ht hok => ?_⟩
  · rw [exec_eq_result] at ht
    cases ht
    exact ⟨(flushed_flush s).exec_flush, (flushed_flush s).cleared⟩
  · rw [exec_eq_result] at ht
    cases ht
    cases hcode : Claims.configureCode Config.params s with
    | some code =>
      rw [result, configure_of_code (E := Config.env) hcode, State.reject_err] at hok
      exact absurd (hok ▸ hcode) (configureCode_ne_ok _ s)
    | none =>
      have h := flushed_configureAccept Config.env (negotiated s).1 (negotiated s).2 s
      rw [result, configure_of_none (E := Config.env) hcode]
      exact ⟨h.exec_flush, h.cleared⟩

/-- Settles O25: the model's RESET, with its read cursor as the remainder of the rule. -/
theorem resetEffect : Obligations.ResetEffect := by
  refine ⟨by decide, fun s => ?_⟩
  rw [← initialReadCursor_eq_readCursor]
  rfl

/-- Settles O26: the line of an accepted CONFIGURE fits DL_MAX and its lag is no longer, so that both and the read
cursor are words. -/
theorem configureAcceptedEffect : Obligations.ConfigureAcceptedEffect := by
  intro s hcode P F bass mid treble L D
  have hL : L < 2 ^ 32 := by
    obtain ⟨-, hmax⟩ := Config.params_ok.dlMax
    have hfit : L ≤ Config.params.dlMax := lengthAt_le_of_configureCode hcode
    omega
  have hD : D < 2 ^ 32 := (lagIsBelowTheLength s.cfgFs).1.trans_lt hL
  have hR : Claims.readCursor L D < 2 ^ 32 := by
    rw [← initialReadCursor_eq_readCursor]
    exact (initialReadCursor_le L D).trans_lt hL
  have hlen := toNat_ofNat_word hL
  have hdelay := toNat_ofNat_word hD
  refine ⟨_, _, _, hlen, hdelay, toNat_ofNat_word hR, ?_⟩
  have hdl : List.replicate L F64.zero = List.replicate (BitVec.ofNat 32 L).toNat F64.zero := by rw [hlen]
  have hridx : Claims.readCursor L D = initialReadCursor (BitVec.ofNat 32 L).toNat (BitVec.ofNat 32 D).toNat := by
    rw [hlen, hdelay, initialReadCursor_eq_readCursor]
  rw [exec_eq_result, result, configure_of_none (E := Config.env) hcode, hdl, hridx]
  rfl

/-- Settles O27: the checks answer the code of the rule's table. -/
theorem configureRejectedEffect : Obligations.ConfigureRejectedEffect := by
  intro s
  refine ⟨fun code hcode => ?_, fun hcode => ?_⟩
  · rw [exec_eq_result, result, configure_of_code (E := Config.env) hcode]
    rfl
  · rw [exec_eq_result, result, configure_of_none (E := Config.env) hcode]
    exact ⟨_, rfl, rfl⟩

end Sys2Proof
end

section
/-! The designer's contract in CONFIGURE: a whole rate of at least 1 Hz has a Nyquist frequency of at least 1/2, far
above the least positive binary64, so that the clamped frequency lies below it (R146, R253, R255). -/

namespace Sys2Proof.F64

/-- A value between `+0.0` and another value is finite. -/
theorem isFinite_of_zero_lt_of_lt {x y : F64} (h0 : lt zero x = true) (hy : lt x y = true) :
    isFinite x = true := by
  have hzero : key zero = 0 := by decide
  simp only [lt, Bool.and_eq_true, Bool.not_eq_true', decide_eq_true_eq, hzero] at h0 hy
  obtain ⟨-, hpos⟩ := h0
  obtain ⟨⟨-, hnan⟩, hlt⟩ := hy
  have hmag : mag y ≤ infMag := by simpa [isNaN] using hnan
  rw [isFinite_iff]
  simp only [key] at hpos hlt
  split_ifs at hpos hlt <;> omega

theorem pos_ofNat {n : Nat} (h0 : n ≠ 0) (hn : n ≤ 2 ^ 53) : Pos (ofNat n) := by
  obtain ⟨hfin, hval⟩ := ofNat_exact hn
  rw [pos_iff_val, hval]
  exact ⟨hfin, Nat.cast_pos.2 (Nat.pos_of_ne_zero h0)⟩

/-- The Nyquist frequency of a whole rate lies above the least positive binary64. -/
theorem one_unit_lt_nyquist {n : Nat} (h0 : n ≠ 0) (hn : n ≤ 2 ^ 53) : lt 1#64 (nyquist (ofNat n)) = true := by
  obtain ⟨hfin, hval⟩ := ofNat_exact hn
  obtain ⟨c, hc, hvalc⟩ := exists_val_eq_div_two_pow (n := 1) (by decide)
  have h1 : (1 : ℚ) ≤ n := Nat.one_le_cast.2 (Nat.pos_of_ne_zero h0)
  have hhalf := rounds64_half quietNaN hfin
  obtain ⟨-, hle, -⟩ := rounds64_between hhalf hc hfin (by rw [hvalc, hval]; norm_num; linarith)
    (by rw [hval]; linarith)
  rw [lt_iff_val (by decide) (isNaN_nyquist hfin), val_one_unit]
  refine lt_of_lt_of_le ?_ hle
  rw [hvalc, Nat.cast_one]
  exact one_div_lt_one_div_of_lt (by positivity) (pow_lt_pow_right₀ one_lt_two (by decide))

end Sys2Proof.F64

namespace Sys2Proof.Machine

/-- The contract holds for a clamped frequency at a rate that leaves room below its Nyquist frequency (R146,
R253). -/
theorem designerOk_clamped {clamp : F64 → F64 → F64} (hclamp : ClampOk clamp) {k : Kind} {f fs gain q : F64}
    (hf : f.Pos) (hfs : fs.Pos) (hroom : F64.lt 1#64 (F64.nyquist fs) = true) (hgain : gain.Pos)
    (hq : k = .pk → q.Pos) : designerOk k (clamp f fs) fs gain q = true := by
  obtain ⟨hpos, hbelow⟩ := hclamp.below f fs hf hfs hroom
  obtain ⟨hfsFinite, hfsPos⟩ := hfs
  obtain ⟨hgainFinite, hgainPos⟩ := hgain
  exact designerOk_iff.2 ⟨F64.isFinite_of_zero_lt_of_lt hpos hbelow, hfsFinite, hgainFinite, hfsPos, hpos, hbelow,
    hgainPos, hq⟩

end Sys2Proof.Machine

namespace Sys2Proof

open Machine

/-- Settles O28: the rate of CONFIGURE is a whole number other than 0, and the tuning constants are positive. -/
theorem configureMeetsTheDesignerContract : Obligations.ConfigureMeetsTheDesignerContract := by
  intro fs h0 P F
  have ht := Config.params_ok.tune
  have hclamp := Config.params_ok.clampFreq
  have hn0 : fs.toNat ≠ 0 := BitVec.toNat_ne_iff_ne.2 h0
  have hn : fs.toNat ≤ 2 ^ 53 := fs.isLt.le.trans (by decide)
  have hF : F.Pos := F64.pos_ofNat hn0 hn
  have hroom : F64.lt 1#64 (F64.nyquist F) = true := F64.one_unit_lt_nyquist hn0 hn
  exact ⟨designerOk_clamped hclamp ht.bassFreq hF hroom ht.bassGain nofun,
    designerOk_clamped hclamp ht.midFreq hF hroom ht.midGain fun _ => ht.midQ,
    designerOk_clamped hclamp ht.trebleFreq hF hroom ht.trebleGain nofun⟩

end Sys2Proof
end

section
/-! PROCESS: how many frames it runs, what it leaves alone, and one frame as the rule writes it (R230 to R235, R250
to R252, R260, R261). -/

namespace Sys2Proof.Machine

/-! ### The count of frames -/

theorem frameBytes_pos (s : State) : 0 < frameBytes s := by
  unfold frameBytes
  cases s.actCh <;> cases s.actEnc <;> decide

/-- `N` is the ceiling of `IN_LEN / FB` (R251). -/
theorem frameCount_bounds (s : State) :
    s.inLen.toNat ≤ frameCount s * frameBytes s ∧
    frameCount s * frameBytes s < s.inLen.toNat + frameBytes s := by
  have hpos := frameBytes_pos s
  have hdiv := Nat.div_add_mod (s.inLen.toNat + frameBytes s - 1) (frameBytes s)
  have hmod := Nat.mod_lt (s.inLen.toNat + frameBytes s - 1) hpos
  rw [Nat.mul_comm] at hdiv
  unfold frameCount
  omega

/-- The counts of an accepted PROCESS are words: its output fits OBUF (R9, R251). -/
theorem toNat_counts {P : Params} (hP : P.Ok) {s : State} (h : s.inLen.toNat ≤ P.ibufBytes) :
    (BitVec.ofNat 32 (frameCount s)).toNat = frameCount s ∧
    (BitVec.ofNat 32 (frameCount s * s.actCh.count * 4)).toNat = frameCount s * (4 * s.actCh.count) := by
  have hfit := frameCount_le_obuf hP h
  obtain ⟨-, hobuf, -⟩ := hP.obufBytes
  rw [Nat.mul_assoc, Nat.mul_comm s.actCh.count]
  exact ⟨toNat_ofNat_word (frameCount_lt hP h), toNat_ofNat_word (by omega)⟩

/-! ### What PROCESS leaves -/

theorem process_of_unconfigured (E : Env) {s : State} (h : s.fsm = .unconfigured) :
    process E s = s.raise .state := if_pos h

theorem process_of_length (E : Env) {s : State} (hfsm : s.fsm ≠ .unconfigured)
    (hlen : E.P.ibufBytes < s.inLen.toNat) : process E s = s.raise .length := by
  rw [process, if_neg hfsm, if_pos hlen]

/-- A PROCESS that ends with OK was accepted (R260). -/
theorem accepted_of_err_ok {E : Env} {s : State} (h : (process E s).err = .ok) :
    s.fsm ≠ .unconfigured ∧ s.inLen.toNat ≤ E.P.ibufBytes := by
  rcases process_cases E s with ⟨-, hp⟩ | ⟨-, -, hp⟩ | hacc
  · rw [hp] at h; cases h
  · rw [hp] at h; cases h
  · exact hacc

/-- The bytes of an accepted PROCESS are those its frames leave (R260). -/
theorem bufByte_process (E : Env) {s : State} (hfsm : s.fsm ≠ .unconfigured)
    (hlen : s.inLen.toNat ≤ E.P.ibufBytes) (off : Nat) :
    bufByte E (process E s) off = bufByte E (processFrames E (frameCount s) 0 s) off := by
  rw [process_accepted E hfsm hlen]
  rfl

/-- What an accepted PROCESS counts (R260). -/
theorem toNat_counts_process {E : Env} (hP : E.P.Ok) {s : State} (hfsm : s.fsm ≠ .unconfigured)
    (hlen : s.inLen.toNat ≤ E.P.ibufBytes) :
    (process E s).outFrames.toNat = frameCount s ∧
    (process E s).outBytes.toNat = frameCount s * (4 * s.actCh.count) := by
  rw [process_accepted E hfsm hlen]
  exact toNat_counts hP hlen

@[simp] theorem processFrames_actCh (E : Env) (k n : Nat) (s : State) :
    (processFrames E k n s).actCh = s.actCh := by
  rw [frameOf_processFrames E k n s]

/-- The frames after frame `n` do not touch its output bytes (R250, R251). -/
theorem bufByte_processFrames_of_mem_frame (E : Env) {n k N : Nat} (s : State) (hn : n < N)
    (hk : k < 4 * s.actCh.count) :
    bufByte E (processFrames E N 0 s) (obufBase + n * (4 * s.actCh.count) + k)
      = bufByte E (processFrame E n (processFrames E n 0 s)) (obufBase + n * (4 * s.actCh.count) + k) := by
  obtain ⟨m, rfl⟩ := Nat.exists_eq_add_of_lt hn
  rw [Nat.add_assoc, processFrames_add, Nat.zero_add, processFrames]
  refine bufByte_processFrames E m (n + 1) _ _ ?_
  rw [processFrame_actCh, processFrames_actCh, Nat.succ_mul]
  omega

/-! ### One frame -/

/-- A stereo frame: the chains, the widener and two output samples (R250). -/
theorem processFrame_stereo (E : Env) (n : Nat) {s : State} (h : s.actCh = .stereo) :
    processFrame E n s = emit E (n * 8 + 4) (frameWide E n s).1.2 (emit E (n * 8) (frameWide E n s).1.1
      (frameWide E n s).2) := by
  have hch : (frameWide E n s).2.actCh = .stereo := by rwa [frameOf_frameWide E n s]
  rw [processFrame_eq, emitFrame_stereo E n _ _ hch]

/-- A mono frame: the left chain and one output sample (R208, R250). -/
theorem processFrame_mono (E : Env) (n : Nat) {s : State} (h : s.actCh = .mono) :
    processFrame E n s = emit E (n * 4) (frameLeft E n s).1 (frameRight E n s).2 := by
  rw [processFrame_eq, frameWide_mono E n h, emitFrame_mono E n _ _ ((frameRight_actCh E n s).trans h)]

theorem isNaN_nan64At (E : Env) (s : State) (i : Nat) : F64.isNaN (nan64At E s i) = true := F64.isNaN_nanOf _

theorem isNaN_nan32At (E : Env) (s : State) : F32.isNaN (nan32At E s) = true := by
  unfold nan32At F32.nanOf
  split
  · assumption
  · decide

/-- The limits of the HARD policy as patterns (R10, R233). -/
theorem hardClamp_eq (u : F64) :
    hardClamp u = if F64.lt u 0xBFEFAE147AE147AE then 0xBFEFAE147AE147AE
      else if F64.lt 0x3FEFAE147AE147AE u then 0x3FEFAE147AE147AE else u := by
  have hneg : F64.neg F64.clampLimit = 0xBFEFAE147AE147AE := by decide
  rw [hardClamp, hneg]
  rfl

theorem limitPolicy_eq (P : Params) (c : Clip) (u : F64) :
    limitPolicy P c u = if c = .hard then hardClamp u else P.tanh64 u := by
  cases c <;> rfl

/-- A byte of a stored sample (R85, R187). -/
theorem toNat_bufByte_obufWrite (E : Env) (o : Nat) (v : F32) (s : State) {k : Nat} (hk : k < 4) :
    (bufByte E (obufWrite o v s) (obufBase + o + k)).toNat = v.toNat / 2 ^ (8 * k) % 256 := by
  rw [bufByte_obufWrite, if_pos (by omega), Nat.add_sub_cancel_left]
  exact toNat_extractLsb' _ _ _

end Sys2Proof.Machine

namespace Sys2Proof

open Machine

/-- Settles O29: the ceiling is the model's count of frames, and the counts are words. -/
theorem processCompletesAndCounts : Obligations.ProcessCompletesAndCounts := by
  intro s hfsm hlen
  obtain ⟨hframes, hbytes⟩ := toNat_counts Config.params_ok hlen
  refine ⟨frameCount s, _, _, ?_, hframes, ?_, hbytes.trans_le (frameCount_le_obuf Config.params_ok hlen), ?_⟩
  · rw [← Enc.bytes_eq_ite]
    exact frameCount_bounds s
  · rw [hbytes, Nat.mul_comm 4, Nat.mul_assoc]
  · rw [exec_eq_result, result, process_accepted Config.env hfsm hlen]
    rfl

/-- Settles O30: from what a PROCESS may write and where its frames store. -/
theorem processLeavesTheRest : Obligations.ProcessLeavesTheRest := by
  intro s t ht
  rw [exec_eq_result] at ht
  cases ht
  refine ⟨processOnly_process Config.env s, fun hok off hoff => ?_, fun hfsm => ?_, fun hfsm hlen => ?_⟩
  · obtain ⟨hfsm, hlen⟩ := accepted_of_err_ok hok
    obtain ⟨-, hbytes⟩ := toNat_counts_process (E := Config.env) Config.params_ok hfsm hlen
    rw [result, bufByte_process Config.env hfsm hlen]
    refine bufByte_processFrames Config.env _ 0 s off ?_
    rwa [Nat.zero_mul, Nat.zero_add, ← hbytes]
  · exact process_of_unconfigured Config.env hfsm
  · exact process_of_length Config.env hfsm hlen

/-- Settles O31: the frames of an accepted PROCESS after frame `n` store elsewhere. -/
theorem processKeepsEveryFramesOutput : Obligations.ProcessKeepsEveryFramesOutput := by
  intro s t ht hok n k hn hk
  rw [exec_eq_result] at ht
  cases ht
  obtain ⟨hfsm, hlen⟩ := accepted_of_err_ok hok
  obtain ⟨hframes, -⟩ := toNat_counts_process (E := Config.env) Config.params_ok hfsm hlen
  rw [result, hframes] at hn
  rw [result, bufByte_process Config.env hfsm hlen]
  exact bufByte_processFrames_of_mem_frame Config.env s hn hk

/-- Settles O32: the stations of a frame are those of the rule, and each part is its rule's. -/
theorem frameFollowsItsRule : Obligations.FrameFollowsItsRule := by
  refine ⟨fun E n s => ⟨fun hmono => ?_, fun hstereo => ?_⟩, fun E ch x s => rfl, fun E v s => ?_,
    fun E o v s => ⟨⟨_, rfl⟩, fun k hk => toNat_bufByte_obufWrite E o v s hk, fun a ha => ?_⟩⟩
  · rw [processFrame_mono E n hmono]
    rfl
  · rw [processFrame_stereo E n hstereo, frameWide_stereo E n hstereo]
    rfl
  · refine ⟨nan64At E s 0, nan32At E s, isNaN_nan64At E s 0, isNaN_nan32At E s, ?_⟩
    intro u clamped
    rw [show clamped = hardClamp u from (hardClamp_eq u).symm, ← limitPolicy_eq]
    rfl
  · rw [bufByte_obufWrite]
    exact if_neg ha

end Sys2Proof
end

section
/-! A stream split over two PROCESS commands (R261). Two runs are compared frame by frame, frame `k + i` of the one
with frame `i` of the other: they have the same signal path, the input of the second is that of the first from frame
`k` on, and so is its output. -/

namespace Sys2Proof.Machine

/-! ### The signal path -/

/-- The state that the signal path does not hold: the lifecycle, the length of the input, the counts and the bytes
of the buffers. -/
structure Bookkeeping where
  pending : Option Pending
  fsm : Fsm
  err : ErrCode
  inLen : Word
  outFrames : Word
  outBytes : Word
  mem : Memory

/-- The state with that bookkeeping. -/
def State.withBook (b : Bookkeeping) (s : State) : State :=
  { s with pending := b.pending, fsm := b.fsm, err := b.err, inLen := b.inLen, outFrames := b.outFrames,
           outBytes := b.outBytes, mem := b.mem }

section

variable (E : Env) (b : Bookkeeping)

theorem midSide_withBook (l r : F64) (s : State) :
    midSide E l r (s.withBook b) = ((midSide E l r s).1, (midSide E l r s).2.withBook b) := by
  have hlen : (s.withBook b).dlLen = s.dlLen := rfl
  simp only [midSide, hlen]
  split <;> rfl

theorem widenFrame_withBook (l r : F64) (s : State) :
    widenFrame E l r (s.withBook b) = ((widenFrame E l r s).1, (widenFrame E l r s).2.withBook b) := by
  cases hc : s.actCh with
  | mono => rw [widenFrame_mono E l r hc, widenFrame_mono E l r (s := s.withBook b) hc]
  | stereo =>
    rw [widenFrame_stereo E l r hc, widenFrame_stereo E l r (s := s.withBook b) hc, midSide_withBook]

/-- From the decoded pair to the limiter a frame neither reads nor writes the bookkeeping, nor its own number
(R250). -/
theorem frameWide_withBook {n n' : Nat} {s : State}
    (hd : decodeFrame E n' (s.withBook b) = decodeFrame E n s) :
    frameWide E n' (s.withBook b) = ((frameWide E n s).1, (frameWide E n s).2.withBook b) := by
  have hgained : frameGained E n' (s.withBook b) = frameGained E n s := by
    rw [frameGained, hd]
    rfl
  have hleft : frameLeft E n' (s.withBook b) = ((frameLeft E n s).1, (frameLeft E n s).2.withBook b) := by
    rw [frameLeft, hgained]
    rfl
  have hright : frameRight E n' (s.withBook b) = ((frameRight E n s).1, (frameRight E n s).2.withBook b) := by
    rw [frameRight, hgained, hleft]
    rfl
  rw [frameWide, hleft, hright]
  exact widenFrame_withBook E b _ _ _

end

/-- `t` is `s` but for the bookkeeping. -/
def SameSignal (s t : State) : Prop := ∃ b, t = s.withBook b

theorem SameSignal.trans {s t u : State} (h : SameSignal s t) (g : SameSignal t u) : SameSignal s u := by
  obtain ⟨b, rfl⟩ := h
  obtain ⟨c, rfl⟩ := g
  exact ⟨c, rfl⟩

theorem SameSignal.symm {s t : State} (h : SameSignal s t) : SameSignal t s := by
  obtain ⟨b, rfl⟩ := h
  exact ⟨⟨s.pending, s.fsm, s.err, s.inLen, s.outFrames, s.outBytes, s.mem⟩, rfl⟩

/-- The signal path holds the histories, the delay line and its cursors. -/
theorem SameSignal.fst_line {s t : State} (h : SameSignal s t) : t.fst = s.fst ∧ SameLine s t := by
  obtain ⟨b, rfl⟩ := h
  exact ⟨rfl, rfl, rfl, rfl⟩

theorem SameSignal.format {s t : State} (h : SameSignal s t) : t.actCh = s.actCh ∧ frameBytes t = frameBytes s := by
  obtain ⟨b, rfl⟩ := h
  exact ⟨rfl, rfl⟩

/-- An accepted PROCESS has the signal path that its frames leave (R260). -/
theorem sameSignal_process (E : Env) {s : State} (hfsm : s.fsm ≠ .unconfigured)
    (hlen : s.inLen.toNat ≤ E.P.ibufBytes) :
    SameSignal (processFrames E (frameCount s) 0 s) (process E s) := by
  rw [process_accepted E hfsm hlen]
  exact ⟨⟨_, _, _, _, _, _, _⟩, rfl⟩

/-! ### The output -/

/-- `t` has the signal path of `s`, and where `A` holds its output is that of `s` from byte `d` on. -/
structure Shifted (E : Env) (d : Nat) (A : Nat → Prop) (s t : State) : Prop where
  signal : SameSignal s t
  bytes : ∀ a, A a → bufByte E t (obufBase + a) = bufByte E s (obufBase + d + a)

namespace Shifted

variable {E : Env} {d : Nat} {A B : Nat → Prop} {s t : State}

theorem mono (h : Shifted E d A s t) (hBA : ∀ a, B a → A a) : Shifted E d B s t :=
  ⟨h.signal, fun a ha => h.bytes a (hBA a ha)⟩

/-- The same output sample, `d` bytes apart. -/
theorem emit (h : Shifted E d A s t) (o : Nat) (v : F64) :
    Shifted E d (fun a => A a ∨ (o ≤ a ∧ a < o + 4)) (emit E (d + o) v s) (emit E o v t) := by
  obtain ⟨⟨b, rfl⟩, hbytes⟩ := h
  refine ⟨⟨⟨_, _, _, _, _, _, _⟩, rfl⟩, fun a ha => ?_⟩
  have hlimit : limit E v (s.withBook b) = limit E v s := rfl
  show bufByte E (obufWrite o (limit E v (s.withBook b)) (s.withBook b)) (obufBase + a)
    = bufByte E (obufWrite (d + o) (limit E v s) s) (obufBase + d + a)
  rw [bufByte_obufWrite, bufByte_obufWrite, hlimit]
  by_cases hin : o ≤ a ∧ a < o + 4
  · rw [if_pos (by omega), if_pos (by omega), show obufBase + d + a - (obufBase + (d + o)) = a - o by omega,
      Nat.add_sub_add_left]
  · rw [if_neg (by omega), if_neg (by omega)]
    exact hbytes a (ha.resolve_right hin)

/-- The output samples of frame `k + i` and of frame `i` (R251). -/
theorem emitFrame {k : Nat} (h : Shifted E (k * (4 * s.actCh.count)) A s t) (i : Nat) (l r : F64) :
    Shifted E (k * (4 * s.actCh.count))
      (fun a => A a ∨ (i * (4 * s.actCh.count) ≤ a ∧ a < (i + 1) * (4 * s.actCh.count)))
      (emitFrame E (k + i) l r s) (emitFrame E i l r t) := by
  have hch : t.actCh = s.actCh := by
    obtain ⟨⟨b, rfl⟩, -⟩ := h
    rfl
  cases hc : s.actCh with
  | mono =>
    rw [hc, Channels.count] at h
    rw [emitFrame_mono E _ l r hc, emitFrame_mono E i l r (hch.trans hc), Channels.count,
      show (k + i) * 4 = k * (4 * 1) + i * 4 by omega]
    exact (h.emit (i * 4) l).mono fun a ha => ha.imp_right fun hr => by omega
  | stereo =>
    rw [hc, Channels.count] at h
    rw [emitFrame_stereo E _ l r hc, emitFrame_stereo E i l r (hch.trans hc), Channels.count,
      show (k + i) * 8 + 4 = k * (4 * 2) + (i * 8 + 4) by omega, show (k + i) * 8 = k * (4 * 2) + i * 8 by omega]
    exact ((h.emit (i * 8) l).emit (i * 8 + 4) r).mono fun a ha => or_assoc.2 <| ha.imp_right fun hr => by omega

end Shifted

/-! ### The input -/

/-- A sample whose bytes are those of another offset decodes alike (R184). -/
theorem sampleAt_shift {E : Env} {s t : State} {o d : Nat} (h : SameSignal s t) (q : F64)
    (hbytes : ∀ j, j < s.actEnc.bytes →
      bufByte E t (ibufBase + (o + j)) = bufByte E s (ibufBase + d + (o + j))) :
    sampleAt E t q o = sampleAt E s q (d + o) := by
  obtain ⟨b, rfl⟩ := h
  have hbyte : ∀ j, j < s.actEnc.bytes →
      bufByte E (s.withBook b) (ibufBase + o + j) = bufByte E s (ibufBase + (d + o) + j) := fun j hj => by
    rw [Nat.add_assoc, hbytes j hj]
    congr 1
    omega
  have henc : (s.withBook b).actEnc = s.actEnc := rfl
  cases hc : s.actEnc with
  | pcm16 =>
    rw [hc, Enc.bytes] at hbyte
    have h0 := hbyte 0 (by decide)
    simp only [Nat.add_zero] at h0
    simp only [sampleAt, henc, hc, ibufRead16, bufRead16, hbyte 1 (by decide), h0]
  | pcmFloat =>
    rw [hc, Enc.bytes] at hbyte
    have h0 := hbyte 0 (by decide)
    simp only [Nat.add_zero] at h0
    simp only [sampleAt, henc, hc, ibufRead32, bufRead32, hbyte 1 (by decide), hbyte 2 (by decide),
      hbyte 3 (by decide), h0]

/-- Frame `k + i` of `s` lies inside its input when frame `i` of `t` lies inside that of `t` (R185). -/
def FitsAlike (k i : Nat) (s t : State) : Prop :=
  (k + i) * frameBytes s + frameBytes s ≤ s.inLen.toNat ↔ i * frameBytes s + frameBytes s ≤ t.inLen.toNat

/-- After `j` frames of `t`: its input is that of `s` from frame `k` on, and so is its output. -/
structure Aligned (E : Env) (k j : Nat) (s t : State) : Prop where
  output : Shifted E (k * (4 * s.actCh.count)) (· < j * (4 * s.actCh.count)) s t
  room : k * frameBytes s + t.inLen.toNat ≤ 0x20000
  input : ∀ o, o < t.inLen.toNat →
    bufByte E t (ibufBase + o) = bufByte E s (ibufBase + k * frameBytes s + o)

@[simp] theorem processFrame_inLen (E : Env) (n : Nat) (s : State) : (processFrame E n s).inLen = s.inLen := by
  rw [frameOf_processFrame E n s]

@[simp] theorem processFrame_frameBytes (E : Env) (n : Nat) (s : State) :
    frameBytes (processFrame E n s) = frameBytes s := by
  rw [frameOf_processFrame E n s]
  rfl

/-- A frame stores nothing in IBUF (R64, R65). -/
theorem bufByte_processFrame_below (E : Env) (n : Nat) (s : State) {off : Nat} (h : off < obufBase) :
    bufByte E (processFrame E n s) off = bufByte E s off :=
  bufByte_processFrame E n s off fun hin => absurd hin.1 (by omega)

namespace Aligned

variable {E : Env} {k j : Nat} {s t : State}

/-- Frame `i` decodes as frame `k + i` (R181, R184, R185). -/
theorem decodeFrame (h : Aligned E k j s t) {i : Nat} (hfit : FitsAlike k i s t) :
    decodeFrame E i t = decodeFrame E (k + i) s := by
  obtain ⟨⟨hsignal, -⟩, -, hinput⟩ := h
  have hch : t.actCh = s.actCh := by obtain ⟨b, rfl⟩ := hsignal; rfl
  have henc : t.actEnc = s.actEnc := by obtain ⟨b, rfl⟩ := hsignal; rfl
  have hfb : frameBytes t = frameBytes s := by obtain ⟨b, rfl⟩ := hsignal; rfl
  have hq : ∀ m, nan64At E t m = nan64At E s m := fun m => by obtain ⟨b, rfl⟩ := hsignal; rfl
  by_cases hwhole : i * frameBytes s + frameBytes s ≤ t.inLen.toNat
  · have hsample : ∀ q o, o + s.actEnc.bytes ≤ i * frameBytes s + frameBytes s →
        sampleAt E t q o = sampleAt E s q (k * frameBytes s + o) := fun q o ho =>
      sampleAt_shift hsignal q fun m hm => hinput _ (by omega)
    have hbytes : frameBytes s = s.actCh.count * s.actEnc.bytes := rfl
    obtain ⟨hleft, hmono, hstereo⟩ := decodeFrame_whole E (n := k + i) (hfit.2 hwhole)
    obtain ⟨hleft', hmono', hstereo'⟩ := decodeFrame_whole E (n := i) (hfb ▸ hwhole)
    rw [hch] at hmono' hstereo'
    rw [hfb, hq] at hleft'
    rw [Nat.add_mul] at hleft
    cases hc : s.actCh with
    | mono =>
      rw [hc, Channels.count, Nat.one_mul] at hbytes
      have hfirst := hleft'.trans ((hsample _ _ (by omega)).trans hleft.symm)
      exact Prod.ext hfirst (((hmono' hc).trans hfirst).trans (hmono hc).symm)
    | stereo =>
      rw [hc, Channels.count] at hbytes
      refine Prod.ext (hleft'.trans ((hsample _ _ (by omega)).trans hleft.symm)) ?_
      rw [hstereo' hc, hstereo hc, hfb, hq, henc, hsample _ _ (by omega), Nat.add_mul, Nat.add_assoc]
  · rw [decodeFrame_short E (by rw [hfb]; omega), decodeFrame_short E (Nat.lt_of_not_le (hfit.not.2 hwhole))]

/-- Frame `k + j` of the one run and frame `j` of the other. -/
theorem processFrame (h : Aligned E k j s t) (hfit : FitsAlike k j s t) :
    Aligned E k (j + 1) (processFrame E (k + j) s) (processFrame E j t) := by
  have hd := h.decodeFrame hfit
  obtain ⟨⟨⟨b, rfl⟩, houtput⟩, hroom, hinput⟩ := h
  have hwide := frameWide_withBook E b hd
  have hch : (frameWide E (k + j) s).2.actCh = s.actCh := by rw [frameOf_frameWide E (k + j) s]
  refine ⟨?_, by simpa using hroom, fun o ho => ?_⟩
  · have hshift : Shifted E (k * (4 * (frameWide E (k + j) s).2.actCh.count)) (· < j * (4 * s.actCh.count))
        (frameWide E (k + j) s).2 (frameWide E j (s.withBook b)).2 := by
      refine ⟨⟨b, by rw [hwide]⟩, fun a ha => ?_⟩
      rw [bufByte_frameWide, bufByte_frameWide, hch]
      exact houtput a ha
    have hemit := hshift.emitFrame j (frameWide E (k + j) s).1.1 (frameWide E (k + j) s).1.2
    rw [hch] at hemit
    rw [processFrame_actCh, processFrame_eq, processFrame_eq,
      show (frameWide E j (s.withBook b)).1 = (frameWide E (k + j) s).1 by rw [hwide]]
    exact hemit.mono fun a ha => by omega
  · rw [processFrame_inLen] at ho
    rw [processFrame_frameBytes, bufByte_processFrame_below E j _ (by unfold ibufBase obufBase; omega),
      bufByte_processFrame_below E (k + j) s (by unfold ibufBase obufBase; omega)]
    exact hinput o ho

theorem processFrames (m : Nat) {j : Nat} {s t : State} (h : Aligned E k j s t)
    (hfit : ∀ i, i < j + m → FitsAlike k i s t) :
    Aligned E k (j + m) (processFrames E m (k + j) s) (processFrames E m j t) := by
  induction m generalizing j s t with
  | zero => exact h
  | succ m ih =>
    have hnext := ih (h.processFrame (hfit j (by omega))) fun i hi => by
      rw [FitsAlike, processFrame_frameBytes, processFrame_inLen, processFrame_inLen]
      exact hfit i (by omega)
    rwa [Nat.add_assoc, Nat.add_comm 1 m] at hnext

end Aligned

/-! ### The two commands -/

/-- The frames of a stream of `k` whole frames and `len` more bytes (R251). -/
theorem frameCount_of_inLen {s : State} {k len : Nat} (h : s.inLen.toNat = k * frameBytes s + len) :
    frameCount s = k + (len + frameBytes s - 1) / frameBytes s := by
  have hpos := frameBytes_pos s
  rw [frameCount, h, show k * frameBytes s + len + frameBytes s - 1
    = len + frameBytes s - 1 + k * frameBytes s by omega, Nat.add_mul_div_right _ _ hpos, Nat.add_comm]

/-- IBUF ends where OBUF may begin (R9, R82). -/
theorem inLen_le_of_ok {E : Env} (hP : E.P.Ok) {s : State} (h : s.inLen.toNat ≤ E.P.ibufBytes) :
    s.inLen.toNat ≤ 0x20000 := by
  obtain ⟨-, -, hmax⟩ := hP.ibufBytes
  exact h.trans hmax

/-- The first `k` frames run alike with the whole input and with those frames alone. -/
theorem aligned_first (E : Env) {s : State} {k : Nat} {len : Word} (hlen : len.toNat = k * frameBytes s)
    (hle : len.toNat ≤ s.inLen.toNat) (hroom : s.inLen.toNat ≤ 0x20000) :
    Aligned E 0 k (processFrames E k 0 s) (processFrames E k 0 { s with inLen := len }) := by
  have hstart : Aligned E 0 0 s { s with inLen := len } := by
    refine ⟨⟨⟨⟨_, _, _, _, _, _, _⟩, rfl⟩, fun a ha => absurd ha (by omega)⟩, ?_, fun o _ => ?_⟩
    · show 0 * frameBytes s + len.toNat ≤ 0x20000
      omega
    · rw [Nat.zero_mul]
      rfl
  have hfit : ∀ i, i < 0 + k → FitsAlike 0 i s { s with inLen := len } := fun i hi => by
    have hin : i * frameBytes s + frameBytes s ≤ k * frameBytes s := by
      rw [← Nat.succ_mul]
      exact Nat.mul_le_mul_right _ (by omega)
    show (0 + i) * frameBytes s + frameBytes s ≤ s.inLen.toNat ↔ i * frameBytes s + frameBytes s ≤ len.toNat
    rw [Nat.zero_add]
    omega
  simpa only [Nat.zero_add] using hstart.processFrames k hfit

/-- A PROCESS of the first `k` frames alone, against the first `k` frames of the whole input. -/
structure FirstPart (E : Env) (k : Nat) (s t : State) : Prop where
  signal : SameSignal (processFrames E k 0 s) t
  fsm : t.fsm ≠ .unconfigured
  outFrames : t.outFrames.toNat = k
  outBytes : t.outBytes.toNat = k * (4 * s.actCh.count)
  bytes : ∀ o, o < k * (4 * s.actCh.count) →
    bufByte E t (obufBase + o) = bufByte E (processFrames E k 0 s) (obufBase + o)

theorem firstPart_process {E : Env} (hP : E.P.Ok) {s : State} {k : Nat} {len : Word} (hfsm : s.fsm ≠ .unconfigured)
    (hbuf : s.inLen.toNat ≤ E.P.ibufBytes) (hlen : len.toNat = k * frameBytes s) (hle : len.toNat ≤ s.inLen.toNat) :
    FirstPart E k s (process E { s with inLen := len }) := by
  obtain ⟨hsignal, hbytes⟩ := (aligned_first E hlen hle (inLen_le_of_ok hP hbuf)).output
  have hcount : frameCount { s with inLen := len } = k := by
    have hpos := frameBytes_pos { s with inLen := len }
    rw [frameCount_of_inLen (k := k) (len := 0) hlen, Nat.zero_add]
    exact Nat.add_eq_left.2 (Nat.div_eq_of_lt (by omega))
  have hch : ({ s with inLen := len } : State).actCh = s.actCh := rfl
  have hfsm1 : ({ s with inLen := len } : State).fsm ≠ .unconfigured := hfsm
  have hbuf1 : ({ s with inLen := len } : State).inLen.toNat ≤ E.P.ibufBytes := hle.trans hbuf
  generalize ({ s with inLen := len } : State) = s1 at *
  obtain ⟨hframes, houtput⟩ := toNat_counts_process hP hfsm1 hbuf1
  have hprocess := sameSignal_process E hfsm1 hbuf1
  rw [hcount] at hframes houtput hprocess
  rw [hch] at houtput
  refine ⟨hsignal.trans hprocess, ?_, hframes, houtput, fun o ho => ?_⟩
  · rw [process_accepted E hfsm1 hbuf1]
    exact Fsm.noConfusion
  · rw [bufByte_process E hfsm1 hbuf1, hcount, hbytes o (by rwa [processFrames_actCh]), Nat.zero_mul, Nat.add_zero]

/-- `v` is ready to process the rest of the input of `s` after frame `k`: its signal path is that of frame `k`, and
its IBUF holds the rest. -/
structure RestPart (E : Env) (k : Nat) (s v : State) : Prop where
  signal : SameSignal (processFrames E k 0 s) v
  fsm : v.fsm ≠ .unconfigured
  inLen : s.inLen.toNat = k * frameBytes s + v.inLen.toNat
  input : ∀ o, o < v.inLen.toNat →
    bufByte E v (ibufBase + o) = bufByte E s (ibufBase + k * frameBytes s + o)

namespace RestPart

variable {E : Env} {k : Nat} {s v : State}

theorem frameCount (h : RestPart E k s v) : frameCount s = k + frameCount v := by
  have hfb : frameBytes v = frameBytes s := by
    obtain ⟨-, hfb⟩ := h.signal.format
    rw [hfb, frameOf_processFrames E k 0 s]
    rfl
  rw [frameCount_of_inLen h.inLen, Machine.frameCount, hfb]

theorem actCh (h : RestPart E k s v) : v.actCh = s.actCh := by
  obtain ⟨hch, -⟩ := h.signal.format
  rw [hch, processFrames_actCh]

/-- The frames after the first `k` of the whole input run as the frames of the rest. -/
theorem aligned (h : RestPart E k s v) (hroom : s.inLen.toNat ≤ 0x20000) (N : Nat) :
    Aligned E k N (processFrames E (k + N) 0 s) (processFrames E N 0 v) := by
  obtain ⟨hsignal, -, hlen, hinput⟩ := h
  have hfb : frameBytes (processFrames E k 0 s) = frameBytes s := by
    rw [frameOf_processFrames E k 0 s]
    rfl
  have hin : (processFrames E k 0 s).inLen = s.inLen := by rw [frameOf_processFrames E k 0 s]
  have hstart : Aligned E k 0 (processFrames E k 0 s) v := by
    refine ⟨⟨hsignal, fun a ha => absurd ha (by omega)⟩, by rw [hfb]; omega, fun o ho => ?_⟩
    rw [hfb, hinput o ho]
    exact (bufByte_processFrames E k 0 s _ (by unfold ibufBase obufBase; omega)).symm
  have hfit : ∀ i, i < 0 + N → FitsAlike k i (processFrames E k 0 s) v := fun i _ => by
    rw [FitsAlike, hfb, hin, hlen, Nat.add_mul]
    omega
  have hrun := hstart.processFrames N hfit
  rw [processFrames_add, Nat.zero_add]
  rwa [Nat.zero_add, Nat.add_zero] at hrun

theorem inLen_le (h : RestPart E k s v) (hbuf : s.inLen.toNat ≤ E.P.ibufBytes) :
    v.inLen.toNat ≤ E.P.ibufBytes := by
  have hlen := h.inLen
  omega

section

variable (h : RestPart E k s v) (hfsm : s.fsm ≠ .unconfigured) (hbuf : s.inLen.toNat ≤ E.P.ibufBytes)
include h hfsm hbuf

/-- The frames of the rest do not touch the output of the first `k` frames (R251). -/
theorem bufByte_first {o : Nat} (ho : o < k * (4 * s.actCh.count)) :
    bufByte E (process E s) (obufBase + o) = bufByte E (processFrames E k 0 s) (obufBase + o) := by
  rw [bufByte_process E hfsm hbuf, h.frameCount, processFrames_add]
  refine bufByte_processFrames E _ _ _ _ ?_
  rw [processFrames_actCh, Nat.zero_add]
  omega

variable (hP : E.P.Ok)
include hP

theorem counts :
    (process E s).outFrames.toNat = k + (process E v).outFrames.toNat ∧
    (process E s).outBytes.toNat = k * (4 * s.actCh.count) + (process E v).outBytes.toNat ∧
    (process E v).outBytes.toNat = Machine.frameCount v * (4 * s.actCh.count) := by
  obtain ⟨hframes, houtput⟩ := toNat_counts_process hP hfsm hbuf
  obtain ⟨hframesv, houtputv⟩ := toNat_counts_process hP h.fsm (h.inLen_le hbuf)
  rw [h.actCh] at houtputv
  rw [hframes, hframesv, houtput, houtputv, h.frameCount, Nat.add_mul]
  exact ⟨rfl, rfl, rfl⟩

/-- Both commands end with the same signal path. -/
theorem sameSignal : SameSignal (process E v) (process E s) := by
  have hwhole := sameSignal_process E hfsm hbuf
  have hrest := sameSignal_process E h.fsm (h.inLen_le hbuf)
  rw [h.frameCount] at hwhole
  exact ((h.aligned (inLen_le_of_ok hP hbuf) (Machine.frameCount v)).output.signal.trans hrest).symm.trans hwhole

/-- The output of the whole continues with that of the rest. -/
theorem bufByte_rest {o : Nat} (ho : o < Machine.frameCount v * (4 * s.actCh.count)) :
    bufByte E (process E s) (obufBase + k * (4 * s.actCh.count) + o) = bufByte E (process E v) (obufBase + o) := by
  obtain ⟨-, hbytes⟩ := (h.aligned (inLen_le_of_ok hP hbuf) (Machine.frameCount v)).output
  rw [processFrames_actCh] at hbytes
  rw [bufByte_process E hfsm hbuf, bufByte_process E h.fsm (h.inLen_le hbuf), h.frameCount, hbytes o ho]

end

end RestPart

end Sys2Proof.Machine

namespace Sys2Proof

open Machine

/-- Settles O33: the first command runs the first `k` frames and leaves their signal path, from which the second
runs the rest. -/
theorem splitStreamGivesTheSameOutput : Obligations.SplitStreamGivesTheSameOutput := by
  intro s t1 t2 t m k len2 hfsm hbuf hsplit ht1 hinput ht2 ht
  rw [exec_eq_result] at ht1 ht2 ht
  cases ht1
  cases ht2
  cases ht
  have hP : Config.env.P.Ok := Config.params_ok
  have hword1 : (BitVec.ofNat 32 (k * frameBytes s)).toNat = k * frameBytes s := toNat_ofNat_word (by omega)
  have hword2 : (BitVec.ofNat 32 len2).toNat = len2 := toNat_ofNat_word (by omega)
  have hfirst := firstPart_process hP hfsm hbuf hword1 (by omega)
  simp only [result]
  simp only [result] at hinput
  generalize process Config.env { s with inLen := BitVec.ofNat 32 (k * frameBytes s) } = t1 at *
  have hrest : RestPart Config.env k s { t1 with mem := m, inLen := BitVec.ofNat 32 len2 } :=
    ⟨hfirst.signal.trans ⟨⟨_, _, _, _, _, _, _⟩, rfl⟩, hfirst.fsm, hsplit.trans (congrArg _ hword2.symm),
      fun o ho => hinput o (hword2 ▸ ho)⟩
  generalize ({ t1 with mem := m, inLen := BitVec.ofNat 32 len2 } : State) = v at *
  obtain ⟨hfst, hdl, hw, hr⟩ := (hrest.sameSignal hfsm hbuf hP).fst_line
  obtain ⟨hframes, houtput, houtputv⟩ := hrest.counts hfsm hbuf hP
  rw [hfirst.outFrames, hfirst.outBytes]
  refine ⟨hfst, hdl, hw, hr, hframes, houtput, fun o ho => ?_, fun o ho => ?_⟩
  · rw [hrest.bufByte_first hfsm hbuf ho, hfirst.bytes o ho]
  · exact hrest.bufByte_rest hfsm hbuf hP (houtputv ▸ ho)

end Sys2Proof
end

section
/-! The lifecycle table: the next FSM and ERR of every command (R268). -/

namespace Sys2Proof.Machine

/-- Every command ends with no command in progress (R300). -/
theorem result_pending (i : Instr) (s : State) : (result i s).pending = none := by
  cases i with
  | nop | flush | reset => rfl
  | configure => rw [result, configureOnly_configure]
  | process => rw [result, processOnly_process]
  | ldcoef stage => rw [result, coefOnly_ldcoef]
  | setls stage => rw [result, coefOnly_setls]
  | seths stage => rw [result, coefOnly_seths]
  | setpk stage => rw [result, coefOnly_setpk]

/-- `FSM` and `ERR` after CONFIGURE (R268). -/
theorem lifecycle_configure (E : Env) (s : State) :
    ((configure E s).fsm, (configure E s).err) =
      match Claims.configureCode E.P s with
      | none => (.configured, .ok)
      | some code => (.unconfigured, code) := by
  cases hcode : Claims.configureCode E.P s with
  | none => rw [configure_of_none hcode]; rfl
  | some code => rw [configure_of_code hcode]; rfl

/-- `FSM` and `ERR` after PROCESS (R268). -/
theorem lifecycle_process (E : Env) (s : State) :
    ((process E s).fsm, (process E s).err) =
      if s.fsm = .unconfigured then (.unconfigured, .state)
      else if s.inLen.toNat ≤ E.P.ibufBytes then (.processing, .ok)
      else (s.fsm, .length) := by
  by_cases hfsm : s.fsm = .unconfigured
  · rw [process_of_unconfigured E hfsm, if_pos hfsm, State.raise_fsm, State.raise_err, hfsm]
  rw [if_neg hfsm]
  by_cases hlen : s.inLen.toNat ≤ E.P.ibufBytes
  · rw [process_accepted E hfsm hlen, if_pos hlen]
    rfl
  · rw [process_of_length E hfsm (Nat.lt_of_not_le hlen), if_neg hlen]
    rfl

/-- `FSM` and `ERR` after FLUSH (R268). -/
theorem lifecycle_flush (s : State) :
    ((flush s).fsm, (flush s).err) = (if s.fsm = .unconfigured then .unconfigured else .configured, .ok) := by
  cases h : s.fsm <;> simp [flush, h, Fsm.flushed]

/-- A command whose word decodes names a stage (R111, R113). -/
theorem exists_stage_of_stageOk {stage : BitVec 3} (h : stageOk stage = true) : ∃ i : Fin 6, stage.toNat = i.val :=
  ⟨⟨stage.toNat, Nat.lt_succ_of_le (of_decide_eq_true h)⟩, rfl⟩

/-- `FSM` and `ERR` after LDCOEF (R268). -/
theorem lifecycle_ldcoef {stage : BitVec 3} (h : stageOk stage = true) (s : State) :
    ((ldcoef stage s).fsm, (ldcoef stage s).err) = (s.fsm, .ok) := by
  obtain ⟨i, hi⟩ := exists_stage_of_stageOk h
  rw [ldcoef, onStage_of_toNat_eq hi]
  rfl

/-- `FSM` and `ERR` after a designer command (R268). -/
theorem lifecycle_designInto (E : Env) (k : Kind) (q : F64) {stage : BitVec 3} (h : stageOk stage = true)
    (s : State) :
    ((onStage stage (designInto E k q) s).fsm, (onStage stage (designInto E k q) s).err) =
      (s.fsm, if designerOk k (s.operand 0) (s.operand 1) (s.operand 2) q then .ok else .contract) := by
  obtain ⟨i, hi⟩ := exists_stage_of_stageOk h
  rw [onStage_of_toNat_eq hi, designInto]
  split <;> rfl

end Sys2Proof.Machine

namespace Sys2Proof

open Machine

/-- Settles O42: the step of a due word is the result of the word, row by row of the table. -/
theorem lifecycleTransitions : Obligations.LifecycleTransitions := by
  intro s w hp
  refine ⟨wordResult w s, by rw [step_command hp (.inl rfl), runCommand_eq], ?_⟩
  unfold wordResult
  cases hd : decode w with
  | error e => exact ⟨rfl, rfl⟩
  | ok i =>
    refine ⟨result_pending i s, ?_⟩
    obtain ⟨hwf, -⟩ := fields_of_decode hd
    cases i with
    | nop => rfl
    | configure => exact lifecycle_configure Config.env s
    | process => exact lifecycle_process Config.env s
    | flush => exact lifecycle_flush s
    | reset => rfl
    | ldcoef stage => exact lifecycle_ldcoef hwf s
    | setls stage => exact lifecycle_designInto Config.env .ls F64.zero hwf s
    | seths stage => exact lifecycle_designInto Config.env .hs F64.zero hwf s
    | setpk stage => exact lifecycle_designInto Config.env .pk (s.operand 3) hwf s

end Sys2Proof
end

section
/-! What a failing command leaves: nothing but its code is written, and `FSM` where CONFIGURE rejects (R302). -/

namespace Sys2Proof.Machine

/-- `t` is `s` after a command that has written its result code and nothing else. -/
def ErrOnly (s t : State) : Prop := t = { s with err := t.err, pending := none }

theorem errOnly_raise (code : ErrCode) (s : State) : ErrOnly s (s.raise code) := rfl

/-- A designer command that fails has found its contract broken (R146, R151 to R153). -/
theorem errOnly_designInto {E : Env} {k : Kind} {q : F64} {i : Fin 6} {s : State}
    (herr : (designInto E k q i s).err ≠ .ok) : ErrOnly s (designInto E k q i s) := by
  unfold designInto at herr ⊢
  split
  · next hok => rw [if_pos hok] at herr; exact absurd rfl herr
  · exact errOnly_raise .contract s

/-- It is enough that `f` writes its code alone where it fails on one of the six stages: stage 6 or 7 only raises
(R114). -/
theorem errOnly_onStage {f : Fin 6 → State → State} {s : State}
    (hf : ∀ i, (f i s).err ≠ .ok → ErrOnly s (f i s)) {stage : BitVec 3}
    (herr : (onStage stage f s).err ≠ .ok) : ErrOnly s (onStage stage f s) := by
  unfold onStage at herr ⊢
  cases hi : stageIndex stage with
  | none => exact errOnly_raise .illegal s
  | some i => rw [hi] at herr; exact hf i herr

/-- A PROCESS that fails was refused before its first frame (R260). -/
theorem errOnly_process {E : Env} {s : State} (herr : (process E s).err ≠ .ok) : ErrOnly s (process E s) := by
  rcases process_cases E s with ⟨-, hrefused⟩ | ⟨-, -, hrefused⟩ | ⟨hfsm, hlen⟩
  · rw [hrefused]; exact errOnly_raise .state s
  · rw [hrefused]; exact errOnly_raise .length s
  · rw [process_accepted E hfsm hlen] at herr; exact absurd rfl herr

/-- A command other than CONFIGURE that fails writes its code alone (R302). -/
theorem errOnly_result {i : Instr} {s : State} (hi : i ≠ .configure) (herr : (result i s).err ≠ .ok) :
    ErrOnly s (result i s) := by
  cases i with
  | nop | flush | reset => exact absurd rfl herr
  | configure => exact absurd rfl hi
  | process => exact errOnly_process herr
  | ldcoef stage => exact errOnly_onStage (fun _ hstage => absurd rfl hstage) herr
  | setls stage | seths stage | setpk stage => exact errOnly_onStage (fun _ => errOnly_designInto) herr

/-- A CONFIGURE that fails was rejected before it wrote anything but `FSM` (R257, R302). -/
theorem errOnly_configure {E : Env} {s : State} (herr : (configure E s).err ≠ .ok) :
    ErrOnly { s with fsm := .unconfigured } (configure E s) := by
  rcases configure_cases E s with ⟨code, hrejected⟩ | ⟨ch, enc, -, haccepted⟩
  · rw [hrejected]; exact errOnly_raise code _
  · rw [haccepted] at herr; exact absurd rfl herr

end Sys2Proof.Machine

namespace Sys2Proof

open Machine

/-- Settles O43: an illegal word raises, and a word that decodes fails as its command does. -/
theorem errorsWriteOnlyTheirCode : Obligations.ErrorsWriteOnlyTheirCode := by
  intro s t w hp ht herr
  rw [step_command hp (.inl rfl), runCommand_eq, Host.Outcome.next.injEq] at ht
  subst ht
  unfold wordResult at herr ⊢
  cases hd : decode w with
  | error e => exact errOnly_raise .illegal s
  | ok i =>
    rw [hd] at herr
    by_cases hi : i = .configure
    · subst hi
      exact errOnly_configure herr
    · rw [if_neg (hi ∘ Except.ok.inj)]
      exact errOnly_result hi herr

end Sys2Proof
end

section
/-! Power-on and the hazards of a command in progress: what a power-on leaves, what an event of the host does to
the command, what a read replies meanwhile, and that every command ends (R340, R350, R351, R357). -/

namespace Sys2Proof.Machine

/-! ### What a power-on leaves (R340) -/

@[simp] theorem operand_powerOn (s : State) (n : Fin 5) : (powerOn s).operand n = F64.zero :=
  Vector.getElem_replicate n.isLt

@[simp] theorem coefAt_powerOn (s : State) (i : Fin 6) : (powerOn s).coefAt i = coefZero :=
  Vector.getElem_replicate i.isLt

@[simp] theorem fstAt_powerOn (s : State) (i : Fin 6) : (powerOn s).fstAt i = Hist.zero :=
  fstAt_clearFst i s

/-- Both halves of `+0.0` are 0 (R84). -/
theorem halfWord_zero (h : Half) : halfWord h F64.zero = 0 := by cases h <;> rfl

/-- Without a delay line DLWIN reads 0 everywhere (R61). -/
theorem dlwinWord_of_dlLen_zero {s : State} (h : s.dlLen = 0) (off : Nat) : dlwinWord s off = 0 := by
  have hpast : ¬ (off - 0x10000) / 8 < s.dlLen.toNat := by simp [h]
  rw [dlwinWord, if_neg hpast, halfWord_zero]

/-! ### How a command in progress ends -/

/-- A command word ends the command in progress (R114, R300). -/
theorem wordResult_pending (w : Word) (s : State) : (wordResult w s).pending = none := by
  unfold wordResult
  split
  · exact result_pending _ s
  · rfl

/-- An event of the host leaves the command in progress, but for a power-on, which abandons it (R340, R358). -/
theorem hostEvent_pending_of_busy {E : Env} {ev : Input} {s t : State} (h : hostEvent E ev s = .next t)
    (hbusy : s.busy = true) : t.pending = none ∨ t.pending = s.pending := by
  by_cases hev : ev = .powerOn
  · subst hev
    cases h
    exact .inl rfl
  · exact .inr (by rw [(HostFrame.hostEvent h hev).busy hbusy])

/-- A step from a safe state with a command in progress ends the command or uses up one event of its hold. -/
theorem exists_step_of_pending {s : State} {c : Pending} (hp : s.pending = some c)
    (hsafe : s.Safe Config.params) :
    ∃ t, step s = .next t ∧ t.Safe Config.params ∧
      (t.pending = none ∨ (0 < c.hold ∧ t.pending = some ⟨c.word, c.hold - 1⟩)) := by
  obtain ⟨-, -, hprogress⟩ := legalHostNeverFaults s
  obtain ⟨t, ht, hsafe'⟩ := hprogress hsafe
  refine ⟨t, ht, hsafe', ?_⟩
  rcases move_cases s with ⟨hidle, -⟩ | ⟨ev, rest, h⟩ | ⟨d, hd, hdue⟩
  · simp [hp] at hidle
  · rw [step_of_hostMoves h] at ht
    have hbusy : (Claims.taken s rest).busy = true := by rw [busy_taken, State.busy, hp, Option.isSome_some]
    have htaken : (Claims.taken s rest).pending = some ⟨c.word, c.hold - 1⟩ := by
      rw [Claims.taken, hp, Option.map_some]
    obtain ⟨-, hheld⟩ := h
    exact (hostEvent_pending_of_busy ht hbusy).imp_right fun hkept => ⟨hheld c hp, hkept.trans htaken⟩
  · rw [step_command hd hdue, runCommand_eq, Host.Outcome.next.injEq] at ht
    exact .inl (ht ▸ wordResult_pending d.word s)

/-- A run takes its first step first. -/
theorem run_succ_of_step (M : Host.Core) {s t : M.State} (h : M.step s = .next t) (k : Nat) :
    M.run (k + 1) s = M.run k t := by
  rw [Host.Core.run, h]

/-- A command held for `n` more events ends within `n + 1` steps, by induction on the hold (R357). -/
theorem exists_run_of_pending (w : Word) (n : Nat) {s : State} (hp : s.pending = some ⟨w, n⟩)
    (hsafe : s.Safe Config.params) :
    ∃ k t, k ≤ n + 1 ∧ core.run k s = .next t ∧ t.pending = none := by
  induction n generalizing s with
  | zero =>
    obtain ⟨t, ht, -, hdone | ⟨hheld, -⟩⟩ := exists_step_of_pending hp hsafe
    · exact ⟨1, t, le_rfl, run_succ_of_step core ht 0, hdone⟩
    · exact absurd hheld (Nat.lt_irrefl 0)
  | succ n ih =>
    obtain ⟨t, ht, hsafe', hdone | ⟨-, hheld⟩⟩ := exists_step_of_pending hp hsafe
    · exact ⟨1, t, Nat.le_add_left 1 _, run_succ_of_step core ht 0, hdone⟩
    · obtain ⟨k, u, hk, hrun, hdone⟩ := ih hheld hsafe'
      exact ⟨k + 1, u, Nat.succ_le_succ hk, (run_succ_of_step core ht k).trans hrun, hdone⟩

/-! ### What a read replies -/

/-- A place holds the same before and after an event is taken. -/
@[simp] theorem readPlace_taken (E : Env) (s : State) (rest : List Input) (p : Place) (w : Width) :
    readPlace E (Claims.taken s rest) p w = readPlace E s p w := by
  cases p with
  | reg off =>
    rw [readPlace, readPlace]
    cases regAt off with
    | status => exact statusWord_taken s rest
    | _ => rfl
  | dlwin off => rfl
  | ibuf off => cases w <;> rfl
  | obuf off => rfl

/-- Only offset 4 lands at STATUS (R37, R81). -/
theorem placeAt_eq_status {off : Nat} : Claims.placeAt off = .reg 4 ↔ off = 4 := by
  unfold Claims.placeAt
  split_ifs with hreg
  · exact .of_eq (Place.reg.injEq off 4)
  all_goals exact iff_of_false nofun (by omega)

section

variable {s : State} {off : Nat} {w : Width} {rest : List Input} {p : Place}

/-- While busy a read of STATUS replies STATUS and changes nothing (R351). -/
theorem step_read_status_busy (h : Claims.HostMoves s (.read (busAddr Config.params off) w) rest)
    (hoff : off < 0x80000) (hp : placeOf Config.params off w = some (.reg 4)) :
    step s = .next ((Claims.taken s rest).reply (statusWord s)) := by
  have hreg : regAt 4 = .status := by decide
  rw [step_read h hoff hp, hostRead, if_neg (by simp), readPlace_taken, readPlace, hreg, readReg]

/-- While busy a read of any other place replies a fresh draw and changes nothing else (R351). -/
theorem step_read_draw_busy (hbusy : s.busy = true)
    (h : Claims.HostMoves s (.read (busAddr Config.params off) w) rest)
    (hoff : off < 0x80000) (hp : placeOf Config.params off w = some p) (hother : p ≠ .reg 4) :
    step s = .next (State.reply (truncTo w (Config.env.free.word s.busDraw))
      { Claims.taken s rest with busDraw := s.busDraw + 1 }) := by
  rw [step_read h hoff hp, hostRead, busy_taken, if_pos ⟨hbusy, hother⟩]
  rfl

end

end Sys2Proof.Machine

namespace Sys2Proof

open Machine

/-- Settles O9: every step of a safe run ends the command or shortens its hold. -/
theorem commandCompletesInBoundedSteps : Obligations.CommandCompletesInBoundedSteps :=
  fun _ c hp hsafe => exists_run_of_pending c.word c.hold hp hsafe

/-- Settles O11: a legal write has a place, and while busy no place takes it. -/
theorem writesWhileBusyAreDropped : Obligations.WritesWhileBusyAreDropped := by
  rintro s addr w v rest h ⟨off, hoff, rfl, hlegal⟩ hbusy
  exact step_write_busy hbusy h hoff (placeOf_of_legal Config.params_ok hlegal)

/-- Settles O12: a legal read has a place, which is STATUS for offset 4 alone. -/
theorem readsWhileBusyAndIdle : Obligations.ReadsWhileBusyAndIdle := by
  intro s off w rest hoff hlegal h
  have hplace : placeOf Config.params off w = some (Claims.placeAt off) :=
    placeOf_of_legal Config.params_ok hlegal
  refine ⟨fun _ hstatus => ⟨statusWord s, toNat_statusWord s, ?_⟩, fun hbusy hother => ?_,
    fun hidle => ?_⟩
  · rw [placeAt_eq_status.2 hstatus] at hplace
    exact step_read_status_busy h hoff hplace
  · exact ⟨_, step_read_draw_busy hbusy h hoff hplace (placeAt_eq_status.not.2 hother)⟩
  · rw [step_read_idle hidle h hoff hplace, readPlace_taken]
    rfl

/-- Settles O21: the step is `powerOn`, whose registers are those of the table. -/
theorem powerOnLeavesTheResetValues : Obligations.PowerOnLeavesTheResetValues := by
  intro s rest h
  refine ⟨powerOn (Claims.taken s rest), step_of_hostMoves h, rfl, rfl, rfl, rfl, rfl, rfl, rfl, rfl, rfl, rfl,
    rfl, rfl, rfl, rfl, rfl, rfl, rfl, rfl, rfl, rfl, rfl, rfl, operand_powerOn _,
    fun i => ⟨coefAt_powerOn _ i, fstAt_powerOn _ i⟩, fun off _ _ => ?_, fun off => rfl⟩
  exact dlwinWord_of_dlLen_zero rfl off

/-- Settles O45: the power-on state is that of `powerOn`, with cleared histories and an empty line. -/
theorem resetMeetsTheInvariants : Obligations.ResetMeetsTheInvariants := by
  refine ⟨?_, ?_, ?_⟩
  · exact (State.Inv.powerOn Config.params .reset).congr rfl rfl rfl rfl rfl rfl
  · exact State.FstSnapped.of_clearFst (s := .reset) rfl
  · exact State.DlNoNegZero.of_cleared (n := 0) rfl

end Sys2Proof
end
